-- ==== Sys2Proof/Word.lean ====
section
/-! DEFINITION. The word types of the engine (spec/00_scope.md R6, spec/40_primitives.md R110). -/

namespace Sys2Proof

/-- A 32-bit word; always unsigned, arithmetic modulo 2^32 (R6, R7). -/
abbrev Word := BitVec 32

/-- A byte of a byte sequence (R8). -/
abbrev Byte := BitVec 8

end Sys2Proof
end

