-- ==== Sys2Proof/Syntax.lean ====
section
/-! DEFINITION. The commands of the engine, one constructor per row of spec/opcode_table.json
(spec/30_encoding.md R73), and the two reasons a command word is no command (R74, R75). -/

namespace Sys2Proof

/-- A command. The immediate of the two format-I commands is a plain natural number (R72). -/
inductive Instr where
  | nop
  | setRounds (imm : Nat)
  | setBlock (imm : Nat)
  | clearStatus
  | expandKey
  | blockEnc
  | blockDec
  | encryptMsg
  | decryptMsg
  | pad
  | unpad
  deriving DecidableEq, Repr

/-- Why a command word decodes to no command (R74): its OP is not in the opcode map, or it is a format-N word whose ARG
is not 0. The first is checked first. -/
inductive DecodeError where
  | unknownOpcode
  | nonzeroArg
  deriving DecidableEq, Repr

end Sys2Proof
end

