-- ==== Sys2Proof/WellFormed.lean ====
section
/-! DEFINITION. Which commands a command word can hold (spec/30_encoding.md R72): the immediate has 24 bits. -/

namespace Sys2Proof

/-- A 24-bit unsigned immediate, 0 to 16,777,215 (R72). -/
def immFits (imm : Nat) : Bool := decide (imm < 2 ^ 24)

/-- The commands that some command word encodes. A format-N command has no argument, so only the immediates of
SET_ROUNDS and SET_BLOCK are checked (R71, R72). -/
def Instr.wellFormed : Instr → Bool
  | .nop => true
  | .setRounds imm => immFits imm
  | .setBlock imm => immFits imm
  | .clearStatus => true
  | .expandKey => true
  | .blockEnc => true
  | .blockDec => true
  | .encryptMsg => true
  | .decryptMsg => true
  | .pad => true
  | .unpad => true

end Sys2Proof
end

