-- ==== Sys2Proof/Decode.lean ====
section
/-! DEFINITION. Decoding a command word, total on any word, and the encoder (spec/30_encoding.md R70 to R75). -/

namespace Sys2Proof

/-- OP, bits [7:0] of a command word (R70). -/
def opField (w : Word) : BitVec 8 := w.extractLsb' 0 8

/-- ARG, bits [31:8] of a command word (R70). -/
def argField (w : Word) : BitVec 24 := w.extractLsb' 8 24

/-- A format-N word is its command when ARG = 0, and illegal otherwise (R71, R74). -/
def formatN (i : Instr) (arg : BitVec 24) : Except DecodeError Instr :=
  if arg = 0 then .ok i else .error .nonzeroArg

/-- R74: the command a word is, by the opcode map of R73. No state changes how a word decodes (R76). -/
def decode (w : Word) : Except DecodeError Instr :=
  match (opField w).toNat with
  | 0x00 => formatN .nop (argField w)
  | 0x01 => .ok (.setRounds (argField w).toNat)
  | 0x02 => .ok (.setBlock (argField w).toNat)
  | 0x03 => formatN .clearStatus (argField w)
  | 0x10 => formatN .expandKey (argField w)
  | 0x11 => formatN .blockEnc (argField w)
  | 0x12 => formatN .blockDec (argField w)
  | 0x20 => formatN .encryptMsg (argField w)
  | 0x21 => formatN .decryptMsg (argField w)
  | 0x30 => formatN .pad (argField w)
  | 0x31 => formatN .unpad (argField w)
  | _ => .error .unknownOpcode

/-- The OP value of a command (R73). -/
def Instr.opcode : Instr → BitVec 8
  | .nop => 0x00#8
  | .setRounds _ => 0x01#8
  | .setBlock _ => 0x02#8
  | .clearStatus => 0x03#8
  | .expandKey => 0x10#8
  | .blockEnc => 0x11#8
  | .blockDec => 0x12#8
  | .encryptMsg => 0x20#8
  | .decryptMsg => 0x21#8
  | .pad => 0x30#8
  | .unpad => 0x31#8

/-- The ARG value of a command: the immediate of a format-I command, 0 for format N (R71, R72). -/
def Instr.argument : Instr → Nat
  | .setRounds imm => imm
  | .setBlock imm => imm
  | .nop => 0
  | .clearStatus => 0
  | .expandKey => 0
  | .blockEnc => 0
  | .blockDec => 0
  | .encryptMsg => 0
  | .decryptMsg => 0
  | .pad => 0
  | .unpad => 0

/-- The command word of a well-formed command: ARG above OP (R70). -/
def encode (i : Instr) : Word := BitVec.ofNat 24 i.argument ++ i.opcode

/-- The word of the opcode table: bit 0 least significant, the bits from `nbits` upward 0. -/
def tableWord (nbits w : Nat) : Word := BitVec.ofNat 32 (w % 2 ^ nbits)

/-- The command that the decoder reads from an instruction of the opcode table whose bits are `w`. A command word has no
byte order of its own: it is one 32-bit bus word (R70). -/
def decodeTableWord (nbits w : Nat) : Option Instr := (decode (tableWord nbits w)).toOption

end Sys2Proof
end

