-- ==== Sys2Proof/Config.lean ====
section
/-! DEFINITION. What an implementation fixes (spec/00_scope.md R5), and the free values: constants without a body,
so that a claim which mentions one holds whatever it is. -/

namespace Sys2Proof

/-- BLOCK_BYTES, the one legal block size (R5). -/
def Config.blockBytes : Nat := 16

/-- R_MAX, the largest round count (R5). -/
def Config.rMax : Nat := 255

/-- T_MAX, the depth of the subkey RAM in words (R5, R33). -/
def Config.tMax : Nat := 514

/-- The magic constants P and Q of the key schedule (spec/41_key_schedule.md R120). -/
def Config.magicP : Word := 0xB7E15163#32

/-- See `Config.magicP`. -/
def Config.magicQ : Word := 0x9E3779B9#32

/-- The two parameters of a model instance (R5): the size of IN_BUF and of OUT_BUF in bytes, and LATENCY, the bound on
the number of clock cycles a command stays busy. They are fixed for the instance: no step changes them. -/
structure Params where
  bufBytes : Nat
  latency  : Nat
  deriving DecidableEq, Repr

/-- R5's limits on the parameters: BUF_BYTES is a multiple of 16 with 32 ≤ BUF_BYTES ≤ 16384; a command stays busy for
at least one cycle (R60: it is accepted at one edge and completes at a later one). -/
abbrev Params.Legal (p : Params) : Prop :=
  p.bufBytes % 16 = 0 ∧ 32 ≤ p.bufBytes ∧ p.bufBytes ≤ 16384 ∧ 1 ≤ p.latency

/-- The instance whose reset state is `State.reset`: the default BUF_BYTES of R5. DESIGN CHOICE (log entry 5): LATENCY
is 1; R5 gives it no value. -/
def Params.default : Params := { bufBytes := 4096, latency := 1 }

/-- FREE VALUE (log entry 7). The byte that the RAM cell at a host byte address holds after the n-th reset
(spec/10_state.md R33 to R35, R42; spec/93_implementation_defined.md U8, U9: "any value"). -/
opaque Config.ramAtReset : Nat → Nat → Byte

/-- FREE VALUE (log entry 8). What a host read of anything but STATUS returns while BUSY = 1 (spec/20_memory.md R61 (c);
U5: "any value"), indexed by the counter `State.draws`. -/
opaque Config.busyRead : Nat → Word

/-- FREE VALUE (log entry 5). How long a command stays busy, before it is brought within LATENCY
(spec/70_reset_and_hazards.md R256, R258; U6), indexed by the counter `State.draws`. -/
opaque Config.busyLength : Nat → Nat

end Sys2Proof
end

