-- ==== Sys2Proof/Machine/State.lean ====
section
/-! DEFINITION. The state of the engine as plain data (spec/10_state.md R20 to R44, spec/20_memory.md R50), the reasons
a step can stop, and the state right after reset (R42). -/

namespace Sys2Proof.Machine

/-- The RESULT codes of STATUS (R23). No other code exists. -/
inductive ResultCode where
  | ok
  | configError
  | argError
  | formatError
  | paddingError
  | illegalCmd
  deriving DecidableEq, Repr

/-- The DETAIL codes of STATUS, each with the cause of 60_exceptions.md R221 (R24). No other code exists. -/
inductive DetailCode where
  | none
  | roundsRange
  | blockSizeUnsupported
  | notConfigured
  | keyLen
  | ivLen
  | msgLenRange
  | ctNotBlockMultiple
  | padEmpty
  | padZero
  | padGtBlock
  | padGtLen
  | padMismatch
  | unknownOpcode
  | nonzeroArg
  deriving DecidableEq, Repr

/-- The fields of STATUS that are stored (R22). BUSY is not among them: it is 1 exactly while the sequencer is RUNNING
(R39), and is kept there alone (log entry 3). The reserved bits read 0 and have no storage. -/
structure Status where
  stickyErr : Bool
  wrIgnored : Bool
  result    : ResultCode
  detail    : DetailCode
  lastOp    : BitVec 8
  deriving DecidableEq, Repr

/-- CONFIG (R21): the round count and the block size, 0 meaning not configured. -/
structure ConfigReg where
  rounds     : BitVec 8
  blockBytes : BitVec 8
  deriving DecidableEq, Repr

/-- The block working registers and the round temporaries (R36). Hidden: loaded before every read. -/
structure Work where
  a : Word
  b : Word
  c : Word
  d : Word
  t : Word
  u : Word
  deriving DecidableEq, Repr

/-- The key schedule scratch (R37). Hidden: initialised at the start of every key schedule. -/
structure Scratch where
  l  : Vector Word 8
  a  : Word
  b  : Word
  ii : Nat
  j  : Nat
  k  : Nat
  deriving DecidableEq, Repr

/-- The chain state (R38). Hidden: initialised at the start of every message command. -/
structure Chain where
  prevC : Vector Byte 16
  prevP : Vector Byte 16
  deriving DecidableEq, Repr

/-- The sequencer (R39). While RUNNING it holds the captured command word; `left` is its phase: how many rising edges
pass before the completion edge (log entry 11). -/
inductive Sequencer where
  | idle
  | running (cmd : Word) (left : Nat)
  deriving DecidableEq, Repr

/-- The input pins at one rising edge of clk (20_memory.md R50); `rstN` is rst_n. -/
structure Pins where
  rstN  : Bool
  req   : Bool
  we    : Bool
  addr  : BitVec 16
  wdata : Word
  deriving DecidableEq, Repr

/-- A bus request that the engine has seen and acknowledges in the present cycle (20_memory.md R50). -/
structure BusReq where
  we    : Bool
  addr  : BitVec 16
  wdata : Word
  deriving DecidableEq, Repr

/-- The bus outputs at the last rising edge (20_memory.md R50, R53): no ack; an ack of a write; an ack of a read with
bus_rdata; or the error response. -/
inductive Response where
  | noAck
  | written
  | read (rdata : Word)
  | error
  deriving DecidableEq, Repr

/-- RAM contents: (host byte address, byte) cells, addresses strictly rising. A listed cell was written since the last
reset; an unlisted one holds the free value it has after reset (log entry 7). -/
abbrev Memory := List Host.Cell

/-- Everything the spec gives the machine, and the model's own fields, which are the last three and `params`. -/
structure State where
  /-- The instance's parameters (00_scope.md R5); changed by no step. -/
  params      : Params
  /-- CONFIG (R21). -/
  config      : ConfigReg
  /-- STATUS without BUSY (R22). -/
  status      : Status
  /-- KEY0 to KEY7 (R25). -/
  key         : Vector Word 8
  /-- KEY_LEN (R26). -/
  keyLen      : Word
  /-- IV0 to IV3 (R27). -/
  iv          : Vector Word 4
  /-- IV_LEN (R28). -/
  ivLen       : Word
  /-- MSG_LEN (R29). -/
  msgLen      : Word
  /-- OUT_LEN (R30). -/
  outLen      : Word
  /-- SUBKEY_COUNT (R31). -/
  subkeyCount : Word
  /-- The subkey RAM, IN_BUF and OUT_BUF (R33 to R35), by host byte address. -/
  mem         : Memory
  /-- A, B, C, D, t, u (R36). -/
  work        : Work
  /-- The key schedule scratch (R37). -/
  scratch     : Scratch
  /-- PREV_C and PREV_P (R38). -/
  chain       : Chain
  /-- The sequencer (R39), and with it STATUS.BUSY. -/
  seq         : Sequencer
  /-- The sequencer's block index (R39): how many blocks the last block or message command processed. -/
  blockIndex  : Nat
  /-- The request being acknowledged in the present cycle: bus_ack = 1 exactly when there is one and rst_n = 1 (R50). -/
  pending     : Option BusReq
  /-- bus_ack, bus_err and bus_rdata as they stood at the last rising edge (R50). -/
  response    : Response
  /-- The model's own: the pins at the coming rising edges, first edge first; after them the host is silent. -/
  inputs      : List Pins
  /-- The model's own: how many free values of busy reads and busy lengths have been used. -/
  draws       : Nat
  /-- The model's own: how many reset edges there have been; it indexes the free RAM contents. -/
  resets      : Nat
  deriving DecidableEq, Repr

/-- Why the machine stops. -/
inductive Fault where
  /-- Raised by a clock edge at which the host has dropped or changed a request before its ack (20_memory.md R50, R67;
  93_implementation_defined.md U12: the model has no move for it). Safe: the machine stops, and nothing is claimed. -/
  | hostProtocolViolation
  deriving DecidableEq, Repr

/-- Why an instruction has no meaning. -/
inductive Refusal where
  /-- Raised by an arm of `exec` for an instruction that is not modelled yet. Safe: the machine stops. No arm does. -/
  | notModelled (mnemonic : String)
  deriving DecidableEq, Repr

/-- The state right after reset of the instance with parameters `p` (R42). STATUS, CONFIG, the keys, the lengths and the
sequencer are as R42 says, and the RAMs list nothing (any value). DESIGN CHOICE (log entries 1, 8 to 11): the hidden
registers, which R42 gives no value, are 0, and the model's own fields are empty or 0. -/
def State.resetOf (p : Params) : State where
  params      := p
  config      := { rounds := 0, blockBytes := 0 }
  status      := { stickyErr := false, wrIgnored := false, result := .ok, detail := .none, lastOp := 0 }
  key         := Vector.replicate 8 0
  keyLen      := 0
  iv          := Vector.replicate 4 0
  ivLen       := 0
  msgLen      := 0
  outLen      := 0
  subkeyCount := 0
  mem         := []
  work        := { a := 0, b := 0, c := 0, d := 0, t := 0, u := 0 }
  scratch     := { l := Vector.replicate 8 0, a := 0, b := 0, ii := 0, j := 0, k := 0 }
  chain       := { prevC := Vector.replicate 16 0, prevP := Vector.replicate 16 0 }
  seq         := .idle
  blockIndex  := 0
  pending     := none
  response    := .noAck
  inputs      := []
  draws       := 0
  resets      := 0

/-- The machine right after reset, with the default BUF_BYTES (00_scope.md R5). -/
def State.reset : State := State.resetOf Params.default

end Sys2Proof.Machine
end

