-- ==== Sys2Proof/Machine/Flags.lean ====
section
/-! DEFINITION. STATUS and CONFIG as the words a host reads, and the codes in them (spec/10_state.md R21 to R24;
spec/20_memory.md R54). -/

namespace Sys2Proof.Machine

/-- The numeric value of a RESULT code (R23). -/
def ResultCode.code : ResultCode → BitVec 4
  | .ok => 0
  | .configError => 1
  | .argError => 2
  | .formatError => 3
  | .paddingError => 4
  | .illegalCmd => 5

/-- The numeric value of a DETAIL code (R24). -/
def DetailCode.code : DetailCode → BitVec 8
  | .none => 0x00
  | .roundsRange => 0x01
  | .blockSizeUnsupported => 0x02
  | .notConfigured => 0x03
  | .keyLen => 0x10
  | .ivLen => 0x11
  | .msgLenRange => 0x12
  | .ctNotBlockMultiple => 0x20
  | .padEmpty => 0x30
  | .padZero => 0x31
  | .padGtBlock => 0x32
  | .padGtLen => 0x33
  | .padMismatch => 0x34
  | .unknownOpcode => 0x40
  | .nonzeroArg => 0x41

/-- The RESULT code that each DETAIL code is written together with (R24). -/
def DetailCode.result : DetailCode → ResultCode
  | .none => .ok
  | .roundsRange => .configError
  | .blockSizeUnsupported => .configError
  | .notConfigured => .configError
  | .keyLen => .argError
  | .ivLen => .argError
  | .msgLenRange => .argError
  | .ctNotBlockMultiple => .formatError
  | .padEmpty => .paddingError
  | .padZero => .paddingError
  | .padGtBlock => .paddingError
  | .padGtLen => .paddingError
  | .padMismatch => .paddingError
  | .unknownOpcode => .illegalCmd
  | .nonzeroArg => .illegalCmd

/-- The DETAIL of an undecodable command word (60_exceptions.md R221). -/
def detailOf : DecodeError → DetailCode
  | .unknownOpcode => .unknownOpcode
  | .nonzeroArg => .nonzeroArg

/-- Whether the sequencer is RUNNING (R39). -/
def Sequencer.isRunning : Sequencer → Bool
  | .idle => false
  | .running _ _ => true

/-- STATUS.BUSY (R22, R39): 1 from the acceptance of a command until its completion. -/
def State.busy (s : State) : Bool := s.seq.isRunning

/-- STATUS as a host reads it (R22): LAST_OP, DETAIL, RESULT, a reserved 0, WR_IGNORED, STICKY_ERR, BUSY, from the most
significant field down; bits 31 to 24 and bit 3 read 0 (R54). -/
def State.statusWord (s : State) : Word :=
  0#8 ++ s.status.lastOp ++ s.status.detail.code ++ s.status.result.code ++ 0#1
    ++ BitVec.ofBool s.status.wrIgnored ++ BitVec.ofBool s.status.stickyErr ++ BitVec.ofBool s.busy

/-- CONFIG as a host reads it (R21): bits 31 to 16 read 0 (R54). -/
def State.configWord (s : State) : Word := 0#16 ++ s.config.blockBytes ++ s.config.rounds

end Sys2Proof.Machine
end

