-- ==== Sys2Proof/Machine/Primitives.lean ====
section
/-! DEFINITION. The word codec and the arithmetic primitives (spec/40_primitives.md R100 to R110). Addition, subtraction
and multiplication modulo 2^32 are those of `Word` itself (R100, R101). -/

namespace Sys2Proof.Machine

/-- R103: rotation to the left, the count taken modulo 32. -/
def rotl32 (x : Word) (n : Nat) : Word :=
  if n % 32 = 0 then x else (x <<< (n % 32)) ||| (x >>> (32 - n % 32))

/-- R104: rotation to the right, the count taken modulo 32. -/
def rotr32 (x : Word) (n : Nat) : Word :=
  if n % 32 = 0 then x else (x >>> (n % 32)) ||| (x <<< (32 - n % 32))

/-- R102: `x & 31`, a rotation count. -/
def low5 (x : Word) : Nat := (x &&& 31#32).toNat

/-- R105: the quadratic function F. -/
def quadF (x : Word) : Word := rotl32 (x * (2 * x + 1)) 5

/-- The four bytes of a word, least significant first (R107). -/
def wordBytes (w : Word) : List Byte :=
  [w.extractLsb' 0 8, w.extractLsb' 8 8, w.extractLsb' 16 8, w.extractLsb' 24 8]

/-- The word of four bytes, the first least significant (R106). -/
def bytesWord (b0 b1 b2 b3 : Byte) : Word := b3 ++ b2 ++ b1 ++ b0

/-- R107: LEBytes. -/
def leBytes : List Word → List Byte
  | [] => []
  | w :: ws => wordBytes w ++ leBytes ws

/-- R106: LEWords, for a byte sequence whose length is a multiple of 4. -/
def leWords : List Byte → List Word
  | b0 :: b1 :: b2 :: b3 :: bs => bytesWord b0 b1 b2 b3 :: leWords bs
  | _ => []

/-- R108: bytewise xor of two byte sequences of equal length. -/
def xorBytes (x y : List Byte) : List Byte := List.zipWith (fun a b => a ^^^ b) x y

/-- R108: the zero block, the identity of block xor. -/
def zero16 : List Byte := List.replicate 16 0

/-- The block `blk_k(x) = x[16k .. 16k+16)` of a byte sequence (00_scope.md R8). -/
def blockAt (k : Nat) (x : List Byte) : List Byte := (x.drop (16 * k)).take 16

/-- The first m blocks of a byte sequence, in order (R8). -/
def blocksOf (m : Nat) (x : List Byte) : List (List Byte) := (List.range m).map fun k => blockAt k x

/-- The content of a 16-byte register (R8). -/
def blockReg (x : List Byte) : Vector Byte 16 := Vector.ofFn fun i => x.getD i 0

end Sys2Proof.Machine
end

