-- ==== Sys2Proof/Machine/Ops.lean ====
section
/-! DEFINITION. The named operations over the RAMs and the registers: reading and writing bytes, accepting a command,
the two completions (spec/60_exceptions.md R223 to R225) and the reset edge (spec/70_reset_and_hazards.md R250, R251). -/

namespace Sys2Proof.Machine

/-! ### RAM -/

/-- What an unlisted cell holds: no value written since the last reset (log entry 7). -/
def Memory.unlisted : Option Byte := none

/-- The canonical form: addresses strictly rising. A listed cell always holds a byte, so none equals `Memory.unlisted`. -/
abbrev Memory.wf (m : Memory) : Prop := m.Pairwise fun x y => x.1 < y.1

/-- The byte written at an address since the last reset, if any. -/
def Memory.read (m : Memory) (a : Nat) : Option Byte :=
  match m.find? (fun c => c.1 == a) with
  | some c => some c.2
  | none => Memory.unlisted

/-- Consecutive cells from an address on. -/
def Memory.cells (base : Nat) : List Byte → Memory
  | [] => []
  | b :: bs => (base, b) :: Memory.cells (base + 1) bs

/-- Write consecutive bytes from an address on: the cells below and above stay. -/
def Memory.write (m : Memory) (base : Nat) (bs : List Byte) : Memory :=
  m.filter (fun c => decide (c.1 < base)) ++ Memory.cells base bs
    ++ m.filter (fun c => decide (base + bs.length ≤ c.1))

/-- Host byte address of S[0] (20_memory.md R51). -/
def sBase : Nat := 0x1000

/-- Host byte address of IN[0] (20_memory.md R51). -/
def inBase : Nat := 0x4000

/-- Host byte address of OUT[0] (20_memory.md R51). -/
def outBase : Nat := 0x8000

/-- The byte of RAM at a host byte address: the one written since the last reset, else the free value of the RAM after
reset (10_state.md R33 to R35). -/
def State.byteAt (s : State) (a : Nat) : Byte :=
  (s.mem.read a).getD (Config.ramAtReset s.resets a)

/-- n bytes of RAM from a host byte address on. -/
def State.bytesAt (s : State) (base n : Nat) : List Byte :=
  (List.range n).map fun o => s.byteAt (base + o)

/-- The word of RAM at a host byte address, in little-endian lane order (20_memory.md R55). -/
def State.wordAt (s : State) (a : Nat) : Word :=
  bytesWord (s.byteAt a) (s.byteAt (a + 1)) (s.byteAt (a + 2)) (s.byteAt (a + 3))

/-- Write bytes of RAM. -/
def State.store (s : State) (base : Nat) (bs : List Byte) : State :=
  { s with mem := s.mem.write base bs }

/-- Write the subkey RAM from S[0] on, the words above staying (R33), and SUBKEY_COUNT (R31). Each word is held as its
four bytes, the least significant first (log entry 12). -/
def State.putSubkeys (s : State) (ws : List Word) : State :=
  { s.store sBase (leBytes ws) with subkeyCount := BitVec.ofNat 32 ws.length }

/-- Write OUT[0 .. bs.length), the bytes above staying, and OUT_LEN (10_state.md R30; R257). -/
def State.putOut (s : State) (bs : List Byte) (len : Nat) : State :=
  { s.store outBase bs with outLen := BitVec.ofNat 32 len }

/-! ### Hidden registers -/

/-- Leave the block working registers and the block index of a single-block command (R36, R39). -/
def State.putWork (s : State) (w : Work) : State := { s with work := w, blockIndex := 1 }

/-! ### Acceptance and completion -/

/-- How many rising edges beyond the first a command stays busy: a free value below LATENCY (log entry 5). With
LATENCY 1 nothing is left open. -/
def busyExtra (latency n : Nat) : Nat :=
  match latency with
  | 0 => 0
  | 1 => 0
  | l + 2 => Config.busyLength n % (l + 2)

/-- The STATUS fields at acceptance (20_memory.md R60): RESULT and DETAIL 0, LAST_OP the opcode field. -/
def Status.accepted (st : Status) (w : Word) : Status :=
  { st with result := .ok, detail := .none, lastOp := opField w }

/-- Acceptance of a command word (20_memory.md R60; 30_encoding.md R74): the sequencer captures it, which is also
STATUS.BUSY <- 1. -/
def State.accept (s : State) (w : Word) : State :=
  { s with
    status := s.status.accepted w
    seq    := .running w (busyExtra s.params.latency s.draws)
    draws  := s.draws + 1 }

/-- R223, `complete OK`: RESULT and DETAIL 0, BUSY 0, IDLE. -/
def State.completeOk (s : State) : State :=
  { s with status := { s.status with result := .ok, detail := .none }, seq := .idle }

/-- R224, `raise K(d)`, the engine's whole trap entry: RESULT and DETAIL, STICKY_ERR, BUSY 0, IDLE. Nothing is saved
beyond them; the kind K is the one R24 writes with d. -/
def State.raise (s : State) (d : DetailCode) : State :=
  { s with
    status := { s.status with result := d.result, detail := d, stickyErr := true }
    seq    := .idle }

/-- R225, the output scrub: every OUT_BUF byte 0, OUT_LEN 0. -/
def State.scrubOut (s : State) : State :=
  s.putOut (List.replicate s.params.bufBytes 0) 0

/-- R224 with the scrub of R225: the error completion of a command that writes OUT_BUF. -/
def State.raiseScrub (s : State) (d : DetailCode) : State := s.scrubOut.raise d

/-! ### Reset -/

/-- The request on the pins, if there is one (20_memory.md R50). -/
def Pins.request (p : Pins) : Option BusReq :=
  if p.req then some { we := p.we, addr := p.addr, wdata := p.wdata } else none

/-- A rising edge with rst_n = 0 (R250, R251): every state element takes its reset value, all RAM contents become
unspecified anew, bus_ack is 0 at this edge. A request on the pins is seen (log entry 14). -/
def State.resetEdge (s : State) (p : Pins) : State :=
  { State.resetOf s.params with
    pending := p.request
    inputs  := s.inputs
    draws   := s.draws
    resets  := s.resets + 1 }

end Sys2Proof.Machine
end

