-- ==== Sys2Proof/Machine/Operands.lean ====
section
/-! DEFINITION. The implicit operands of the commands (spec/30_encoding.md R79), the checks on them in the order of
spec/60_exceptions.md R222, and the places a bus address names (spec/20_memory.md R51). -/

namespace Sys2Proof.Machine

/-! ### Operands of commands -/

/-- The round count r = CONFIG.ROUNDS (41_key_schedule.md R121). -/
def State.rounds (s : State) : Nat := s.config.rounds.toNat

/-- bs = CONFIG.BLOCK_BYTES (44_pkcs7.md). -/
def State.blockSize (s : State) : Nat := s.config.blockBytes.toNat

/-- The key, KEY[0 .. KEY_LEN) (10_state.md R25): bytes at index KEY_LEN and above are ignored. -/
def State.keyBytes (s : State) : List Byte := (leBytes s.key.toList).take s.keyLen.toNat

/-- The IV, IVB[0 .. 16) (10_state.md R27). -/
def State.ivBytes (s : State) : List Byte := leBytes s.iv.toList

/-- IN[0 .. n) (10_state.md R34). -/
def State.inBytes (s : State) (n : Nat) : List Byte := s.bytesAt inBase n

/-- IN[0 .. MSG_LEN) (10_state.md R29). -/
def State.message (s : State) : List Byte := s.inBytes s.msgLen.toNat

/-! ### Checks: `some d` where the check fails with DETAIL d -/

/-- R222 step 2 for a cipher command: both CONFIG fields. -/
def State.checkCipherConfig (s : State) : Option DetailCode :=
  if s.config.rounds = 0 ∨ s.config.blockBytes = 0 then some .notConfigured else none

/-- R222 step 2 for PAD and UNPAD: BLOCK_BYTES alone. -/
def State.checkBlockConfig (s : State) : Option DetailCode :=
  if s.config.blockBytes = 0 then some .notConfigured else none

/-- R222 step 3: KEY_LEN, the whole 32-bit value. -/
def State.checkKeyLen (s : State) : Option DetailCode :=
  if s.keyLen = 16 ∨ s.keyLen = 24 ∨ s.keyLen = 32 then none else some .keyLen

/-- R222 step 4: IV_LEN, the whole 32-bit value, against CONFIG.BLOCK_BYTES. -/
def State.checkIvLen (s : State) : Option DetailCode :=
  if s.ivLen = s.config.blockBytes.setWidth 32 then none else some .ivLen

/-- R222 step 5 for ENCRYPT_MSG and PAD: the padded message must fit OUT_BUF. -/
def State.checkRoomToPad (s : State) : Option DetailCode :=
  if s.params.bufBytes ≤ s.msgLen.toNat then some .msgLenRange else none

/-- R222 step 5 for DECRYPT_MSG and UNPAD: the input must fit IN_BUF. -/
def State.checkFits (s : State) : Option DetailCode :=
  if s.params.bufBytes < s.msgLen.toNat then some .msgLenRange else none

/-- R222 step 6: the ciphertext is a whole number of blocks. -/
def State.checkWholeBlocks (s : State) : Option DetailCode :=
  if s.msgLen.toNat % 16 = 0 then none else some .ctNotBlockMultiple

/-- A command reports only the first check that fails (R222). -/
def firstFailure : List (Option DetailCode) → Option DetailCode
  | [] => none
  | some d :: _ => some d
  | none :: cs => firstFailure cs

/-- The checks of EXPAND_KEY, BLOCK_ENC and BLOCK_DEC. -/
def State.cipherChecks (s : State) : Option DetailCode :=
  firstFailure [s.checkCipherConfig, s.checkKeyLen]

/-- The checks of ENCRYPT_MSG. -/
def State.encryptChecks (s : State) : Option DetailCode :=
  firstFailure [s.checkCipherConfig, s.checkKeyLen, s.checkIvLen, s.checkRoomToPad]

/-- The checks of DECRYPT_MSG. -/
def State.decryptChecks (s : State) : Option DetailCode :=
  firstFailure [s.checkCipherConfig, s.checkKeyLen, s.checkIvLen, s.checkFits, s.checkWholeBlocks]

/-- The checks of PAD. -/
def State.padChecks (s : State) : Option DetailCode :=
  firstFailure [s.checkBlockConfig, s.checkRoomToPad]

/-- The checks of UNPAD that come before the padding checks. -/
def State.unpadChecks (s : State) : Option DetailCode :=
  firstFailure [s.checkBlockConfig, s.checkFits]

/-! ### What a bus address names -/

/-- A mapped, aligned word of the host's address space (R51). The offsets of IN_BUF and OUT_BUF are in bytes. -/
inductive Target where
  | cmd
  | status
  | config
  | keyLen
  | ivLen
  | msgLen
  | outLen
  | subkeyCount
  | key (n : Fin 8)
  | iv (n : Fin 4)
  | subkey (k : Nat)
  | inBuf (o : Nat)
  | outBuf (o : Nat)
  deriving DecidableEq, Repr

/-- The registers of R51 by word index, 0x0000 to 0x004F. -/
def registerAt : Nat → Target
  | 0 => .cmd
  | 1 => .status
  | 2 => .config
  | 3 => .keyLen
  | 4 => .ivLen
  | 5 => .msgLen
  | 6 => .outLen
  | 7 => .subkeyCount
  | n + 8 => if n < 8 then .key (Fin.ofNat 8 n) else .iv (Fin.ofNat 4 (n - 8))

/-- The RAM windows of R51. -/
def windowAt (bufBytes a : Nat) : Option Target :=
  if sBase ≤ a ∧ a < sBase + 4 * Config.tMax then some (.subkey ((a - sBase) / 4))
  else if inBase ≤ a ∧ a < inBase + bufBytes then some (.inBuf (a - inBase))
  else if outBase ≤ a ∧ a < outBase + bufBytes then some (.outBuf (a - outBase))
  else none

/-- The address map of R51; `none` is a misaligned (R52) or unmapped address. -/
def targetOf (bufBytes : Nat) (addr : BitVec 16) : Option Target :=
  if addr.toNat % 4 ≠ 0 then none
  else if addr.toNat < 0x0050 then some (registerAt (addr.toNat / 4))
  else windowAt bufBytes addr.toNat

/-- Whether the host may write it (R51, R53 (c)). -/
def Target.writable : Target → Bool
  | .cmd => true
  | .status => false
  | .config => false
  | .keyLen => true
  | .ivLen => true
  | .msgLen => true
  | .outLen => false
  | .subkeyCount => false
  | .key _ => true
  | .iv _ => true
  | .subkey _ => false
  | .inBuf _ => true
  | .outBuf _ => false

/-- What a host read returns while IDLE (R53, R55, R56); CMD reads 0 (10_state.md R32). -/
def State.readTarget (s : State) : Target → Word
  | .cmd => 0
  | .status => s.statusWord
  | .config => s.configWord
  | .keyLen => s.keyLen
  | .ivLen => s.ivLen
  | .msgLen => s.msgLen
  | .outLen => s.outLen
  | .subkeyCount => s.subkeyCount
  | .key n => s.key[n]
  | .iv n => s.iv[n]
  | .subkey k => s.wordAt (sBase + 4 * k)
  | .inBuf o => s.wordAt (inBase + o)
  | .outBuf o => s.wordAt (outBase + o)

/-- What a host write does while IDLE (R53, R55, R56): CMD issues a command, every other writable place only stores; the
read-only places, which no accepted write names, change nothing. -/
def State.writeTarget (s : State) (v : Word) : Target → State
  | .cmd => s.accept v
  | .status => s
  | .config => s
  | .keyLen => { s with keyLen := v }
  | .ivLen => { s with ivLen := v }
  | .msgLen => { s with msgLen := v }
  | .outLen => s
  | .subkeyCount => s
  | .key n => { s with key := s.key.set n v }
  | .iv n => { s with iv := s.iv.set n v }
  | .subkey _ => s
  | .inBuf o => s.store (inBase + o) (wordBytes v)
  | .outBuf _ => s

end Sys2Proof.Machine
end

