-- ==== Sys2Proof/Machine/Bus.lean ====
section
/-! DEFINITION. The host bus: what one transaction does, and the request and acknowledge protocol at one rising edge
(spec/20_memory.md R50 to R61). -/

namespace Sys2Proof.Machine

/-- A silent host: no reset, no request. -/
def idlePins : Pins := { rstN := true, req := false, we := false, addr := 0, wdata := 0 }

/-- R61 (a): a write while BUSY is dropped, and WR_IGNORED records it. -/
def State.dropWrite (s : State) : State :=
  { s with status := { s.status with wrIgnored := true }, response := .written }

/-- R61 (c): a read of anything but STATUS while BUSY returns a free value. -/
def State.drawRead (s : State) : State :=
  { s with response := .read (Config.busyRead s.draws), draws := s.draws + 1 }

/-- A write transaction to a mapped, aligned place (R53). -/
def State.hostWrite (s : State) (tg : Target) (v : Word) : State :=
  if tg.writable = false then { s with response := .error }
  else if s.busy then s.dropWrite
  else { s.writeTarget v tg with response := .written }

/-- A read transaction of a mapped, aligned place (R53). -/
def State.hostRead (s : State) (tg : Target) : State :=
  if s.busy = true ∧ tg ≠ .status then s.drawRead
  else { s with response := .read (s.readTarget tg) }

/-- R53: HostAccess, one completed transaction. A misaligned or unmapped address gets the error response and changes
nothing, busy or not. -/
def State.hostAccess (s : State) (q : BusReq) : State :=
  match targetOf s.params.bufBytes q.addr with
  | none => { s with response := .error }
  | some tg => if q.we then s.hostWrite tg q.wdata else s.hostRead tg

/-- Whether the pins still hold a request that is being acknowledged: bus_req, bus_we, bus_addr and bus_wdata are stable
until the ack, for a read as for a write (R50). -/
def Pins.holds (p : Pins) (q : BusReq) : Bool :=
  p.req && (p.we == q.we) && (p.addr == q.addr) && (p.wdata == q.wdata)

/-- The bus at a rising edge with rst_n = 1 (R50): a request being acknowledged completes; otherwise a request on the
pins is seen, and acknowledged in the next cycle. It does not matter whether a command is running. -/
def busEdge (p : Pins) (s : State) : Except Fault State :=
  match s.pending with
  | none => .ok { s with pending := p.request, response := .noAck }
  | some q =>
    if p.holds q then .ok ({ s with pending := none }.hostAccess q)
    else .error .hostProtocolViolation

/-- The state in which a command word has been accepted, the host is silent, and the next rising edge is the completion
edge of that command. -/
def State.loadCommand (s : State) (w : Word) : State :=
  { s with status := s.status.accepted w, seq := .running w 0, pending := none, inputs := [] }

end Sys2Proof.Machine
end

