-- ==== Sys2Proof/Machine/KeySchedule.lean ====
section
/-! DEFINITION. The key_schedule_mixer and EXPAND_KEY (spec/41_key_schedule.md R120 to R127). -/

namespace Sys2Proof.Machine

/-- t = 2r + 4, the subkey count (R121; 90_conflicts.md C1). -/
def subkeysFor (r : Nat) : Nat := 2 * r + 4

/-- n words from x on, each Q above the one before it (R123). -/
def arithmeticWords (x : Word) : Nat → List Word
  | 0 => []
  | n + 1 => x :: arithmeticWords (x + Config.magicQ) n

/-- R123: S[0] = P, S[i] = S[i-1] + Q, for t words. -/
def initialSubkeys (t : Nat) : List Word := arithmeticWords Config.magicP t

/-- The working values of the key schedule loop (R124): the subkeys S, the key words L, the accumulators A and B, the
indices ii and j, and the iteration number k last run. -/
structure Mixing where
  s  : List Word
  l  : List Word
  a  : Word
  b  : Word
  ii : Nat
  j  : Nat
  k  : Nat
  deriving DecidableEq, Repr

/-- One iteration of R124: A first, then B from the new A and the old B, rotated by (A + B) & 31 (90_conflicts.md C2). -/
def mixStep (t c : Nat) (m : Mixing) (k : Nat) : Mixing :=
  let a := rotl32 (m.s.getD m.ii 0 + m.a + m.b) 3
  let b := rotl32 (m.l.getD m.j 0 + a + m.b) (low5 (a + m.b))
  { s := m.s.set m.ii a, l := m.l.set m.j b, a := a, b := b,
    ii := (m.ii + 1) % t, j := (m.j + 1) % c, k := k }

/-- The start of R124's loop: L from the key (R122), S from P and Q (R123), everything else 0. -/
def mixStart (key : List Byte) (t : Nat) : Mixing :=
  { s := initialSubkeys t, l := leWords key, a := 0, b := 0, ii := 0, j := 0, k := 0 }

/-- The whole loop of R124, 3·max(c, t) iterations. -/
def mixAll (key : List Byte) (r : Nat) : Mixing :=
  let c := key.length / 4
  let t := subkeysFor r
  (List.range (3 * max c t)).foldl (mixStep t c) (mixStart key t)

/-- R124: Expand(key, r), the t subkeys. -/
def expand (key : List Byte) (r : Nat) : List Word := (mixAll key r).s

/-- Leave the key schedule scratch registers (10_state.md R37); the words of L above the key's stay. -/
def State.putScratch (s : State) (m : Mixing) : State :=
  { s with
    scratch := { l := Vector.ofFn fun i => m.l.getD i s.scratch.l[i], a := m.a, b := m.b,
                 ii := m.ii, j := m.j, k := m.k } }

/-- The subkeys of the current key and round count, which every cipher command derives afresh (R125). -/
def State.subkeys (s : State) : List Word := expand s.keyBytes s.rounds

/-- R125: RunKeySchedule. It writes S[0..t) and SUBKEY_COUNT, and leaves S[t..514) unchanged. -/
def State.runKeySchedule (s : State) : State :=
  (s.putScratch (mixAll s.keyBytes s.rounds)).putSubkeys s.subkeys

/-- R127. Its errors do not scrub: EXPAND_KEY never touches OUT_BUF or OUT_LEN. -/
def execExpandKey (s : State) : Host.Outcome State Fault Refusal :=
  match s.cipherChecks with
  | some d => .next (s.raise d)
  | none => .next s.runKeySchedule.completeOk

end Sys2Proof.Machine
end

