-- ==== Sys2Proof/Machine/BlockTransform.lean ====
section
/-! DEFINITION. The RC6 block transform, BLOCK_ENC and BLOCK_DEC (spec/42_block_transform.md R140 to R145). -/

namespace Sys2Proof.Machine

/-- S[k] of a subkey sequence. -/
def subkeyAt (ks : List Word) (k : Nat) : Word := ks.getD k 0

/-- R140: load A, B, C, D from a 16-byte block. The temporaries are written before they are read. -/
def loadBlock (blk : List Byte) : Work :=
  let ws := leWords blk
  { a := ws.getD 0 0, b := ws.getD 1 0, c := ws.getD 2 0, d := ws.getD 3 0, t := 0, u := 0 }

/-- R140: the output block. -/
def storeBlock (w : Work) : List Byte := leBytes [w.a, w.b, w.c, w.d]

/-- R141: input whitening with S[0] and S[1]. -/
def encWhitenIn (ks : List Word) (w : Work) : Work :=
  { w with b := w.b + subkeyAt ks 0, d := w.d + subkeyAt ks 1 }

/-- R141: round i of encryption, with the rotation of the registers. -/
def encRound (ks : List Word) (w : Work) (i : Nat) : Work :=
  let t := quadF w.b
  let u := quadF w.d
  let a := rotl32 (w.a ^^^ t) (low5 u) + subkeyAt ks (2 * i)
  let c := rotl32 (w.c ^^^ u) (low5 t) + subkeyAt ks (2 * i + 1)
  { a := w.b, b := c, c := w.d, d := a, t := t, u := u }

/-- R141: output whitening with S[2r+2] and S[2r+3] (90_conflicts.md C1). -/
def encWhitenOut (ks : List Word) (r : Nat) (w : Work) : Work :=
  { w with a := w.a + subkeyAt ks (2 * r + 2), c := w.c + subkeyAt ks (2 * r + 3) }

/-- The rounds 1 to r, in order. -/
def roundNumbers (r : Nat) : List Nat := List.range' 1 r

/-- R141: the working registers at the end of Enc(S, r, blk). -/
def encWork (ks : List Word) (r : Nat) (blk : List Byte) : Work :=
  encWhitenOut ks r ((roundNumbers r).foldl (encRound ks) (encWhitenIn ks (loadBlock blk)))

/-- R141: Enc(S, r, blk). -/
def encBlock (ks : List Word) (r : Nat) (blk : List Byte) : List Byte := storeBlock (encWork ks r blk)

/-- R142: undo the output whitening. -/
def decWhitenOut (ks : List Word) (r : Nat) (w : Work) : Work :=
  { w with c := w.c - subkeyAt ks (2 * r + 3), a := w.a - subkeyAt ks (2 * r + 2) }

/-- R142: round i of decryption: the registers rotate back first. -/
def decRound (ks : List Word) (w : Work) (i : Nat) : Work :=
  let t := quadF w.a
  let u := quadF w.c
  { a := rotr32 (w.d - subkeyAt ks (2 * i)) (low5 u) ^^^ t
    b := w.a
    c := rotr32 (w.b - subkeyAt ks (2 * i + 1)) (low5 t) ^^^ u
    d := w.c
    t := t
    u := u }

/-- R142: undo the input whitening. -/
def decWhitenIn (ks : List Word) (w : Work) : Work :=
  { w with d := w.d - subkeyAt ks 1, b := w.b - subkeyAt ks 0 }

/-- R142: the working registers at the end of Dec(S, r, blk); the rounds run from r down to 1. -/
def decWork (ks : List Word) (r : Nat) (blk : List Byte) : Work :=
  decWhitenIn ks ((roundNumbers r).reverse.foldl (decRound ks) (decWhitenOut ks r (loadBlock blk)))

/-- R142: Dec(S, r, blk). -/
def decBlock (ks : List Word) (r : Nat) (blk : List Byte) : List Byte := storeBlock (decWork ks r blk)

/-- What BLOCK_ENC and BLOCK_DEC share (R144, R145): the checks, the key schedule, one block from IN[0..16) to
OUT[0..16). On an error OUT_BUF is scrubbed and S stays. -/
def blockCommand (transform : List Word → Nat → List Byte → Work) (s : State) :
    Host.Outcome State Fault Refusal :=
  match s.cipherChecks with
  | some d => .next (s.raiseScrub d)
  | none =>
    let w := transform s.subkeys s.rounds (s.inBytes 16)
    .next ((s.runKeySchedule.putWork w).putOut (storeBlock w) 16).completeOk

/-- R144. -/
def execBlockEnc (s : State) : Host.Outcome State Fault Refusal := blockCommand encWork s

/-- R145. -/
def execBlockDec (s : State) : Host.Outcome State Fault Refusal := blockCommand decWork s

end Sys2Proof.Machine
end

