-- ==== Sys2Proof/Machine/Control.lean ====
section
/-! DEFINITION. NOP, SET_ROUNDS, SET_BLOCK, CLEAR_STATUS, and an illegal command word (spec/45_control.md). Each meaning
is the command's completion edge (spec/20_memory.md R60). -/

namespace Sys2Proof.Machine

/-- R200. -/
def execNop (s : State) : Host.Outcome State Fault Refusal := .next s.completeOk

/-- R201: CONFIG.ROUNDS <- imm, refused outside 1 to R_MAX. -/
def execSetRounds (imm : Nat) (s : State) : Host.Outcome State Fault Refusal :=
  if imm = 0 ∨ Config.rMax < imm then .next (s.raise .roundsRange)
  else .next { s with config := { s.config with rounds := BitVec.ofNat 8 imm } }.completeOk

/-- R202: CONFIG.BLOCK_BYTES <- 16, refused for every other value. -/
def execSetBlock (imm : Nat) (s : State) : Host.Outcome State Fault Refusal :=
  if imm = Config.blockBytes then
    .next { s with config := { s.config with blockBytes := BitVec.ofNat 8 imm } }.completeOk
  else .next (s.raise .blockSizeUnsupported)

/-- R203: the sticky bits are cleared at the completion edge. -/
def execClearStatus (s : State) : Host.Outcome State Fault Refusal :=
  .next { s with status := { s.status with stickyErr := false, wrIgnored := false } }.completeOk

/-- R204: an undecodable word completes with ILLEGAL_CMD and changes STATUS only. -/
def execIllegal (e : DecodeError) (s : State) : Host.Outcome State Fault Refusal :=
  .next (s.raise (detailOf e))

end Sys2Proof.Machine
end

