-- ==== Sys2Proof/Machine/Pkcs7.lean ====
section
/-! DEFINITION. The pkcs7_padder, PAD and UNPAD (spec/44_pkcs7.md R180 to R183). -/

namespace Sys2Proof.Machine

/-- R180: how many padding bytes a message gets. -/
def padLength (bs : Nat) (m : List Byte) : Nat := bs - m.length % bs

/-- R180: Pad(m) at block size bs. -/
def padBytes (bs : Nat) (m : List Byte) : List Byte :=
  m ++ List.replicate (padLength bs m) (BitVec.ofNat 8 (padLength bs m))

/-- R181: PadCount(m) at block size bs, the checks in the order of the rule. -/
def padCount (bs : Nat) (m : List Byte) : Except DetailCode Nat :=
  let last := m.getLastD 0
  let n := last.toNat
  if m.length = 0 then .error .padEmpty
  else if n = 0 then .error .padZero
  else if bs < n then .error .padGtBlock
  else if m.length < n then .error .padGtLen
  else if (m.drop (m.length - n)).all (fun b => b == last) then .ok n
  else .error .padMismatch

/-- R181: Unpad(m) at block size bs. -/
def unpadBytes (bs : Nat) (m : List Byte) : Except DetailCode (List Byte) :=
  match padCount bs m with
  | .ok n => .ok (m.take (m.length - n))
  | .error d => .error d

/-- R182. -/
def execPad (s : State) : Host.Outcome State Fault Refusal :=
  match s.padChecks with
  | some d => .next (s.raiseScrub d)
  | none =>
    let y := padBytes s.blockSize s.message
    .next (s.putOut y y.length).completeOk

/-- R183. All MSG_LEN bytes go to OUT, the padding included; OUT_LEN leaves it out. -/
def execUnpad (s : State) : Host.Outcome State Fault Refusal :=
  match s.unpadChecks with
  | some d => .next (s.raiseScrub d)
  | none =>
    match padCount s.blockSize s.message with
    | .error d => .next (s.raiseScrub d)
    | .ok n => .next (s.putOut s.message (s.message.length - n)).completeOk

end Sys2Proof.Machine
end

