-- ==== Sys2Proof/Machine/Pcbc.lean ====
section
/-! DEFINITION. The pcbc_mode_sequencer, ENCRYPT_MSG and DECRYPT_MSG (spec/43_pcbc.md R160 to R165). -/

namespace Sys2Proof.Machine

/-- The running values of the chaining loop (R160, R161): PREV_C, PREV_P, the output so far, the working registers of
the last block and the number of blocks done. -/
structure Chaining where
  prevC : List Byte
  prevP : List Byte
  out   : List Byte
  work  : Work
  index : Nat
  deriving DecidableEq, Repr

/-- The start of R160 and R161: PREV_C the IV, PREV_P the zero block. -/
def chainStart (iv : List Byte) (w : Work) : Chaining :=
  { prevC := iv, prevP := zero16, out := [], work := w, index := 0 }

/-- R160: one block of encryption. -/
def pcbcEncStep (ks : List Word) (r : Nat) (x : Chaining) (p : List Byte) : Chaining :=
  let w := encWork ks r (xorBytes (xorBytes p x.prevC) x.prevP)
  { prevC := storeBlock w, prevP := p, out := x.out ++ storeBlock w, work := w, index := x.index + 1 }

/-- R161: one block of decryption. -/
def pcbcDecStep (ks : List Word) (r : Nat) (x : Chaining) (c : List Byte) : Chaining :=
  let w := decWork ks r c
  let p := xorBytes (xorBytes (storeBlock w) x.prevC) x.prevP
  { prevC := c, prevP := p, out := x.out ++ p, work := w, index := x.index + 1 }

/-- The loop of R160 over the blocks of a padded plaintext, with the final running values. -/
def pcbcEncRun (ks : List Word) (r : Nat) (pp iv : List Byte) (w : Work) : Chaining :=
  (blocksOf (pp.length / 16) pp).foldl (pcbcEncStep ks r) (chainStart iv w)

/-- The loop of R161 over the blocks of a ciphertext, with the final running values. -/
def pcbcDecRun (ks : List Word) (r : Nat) (ct iv : List Byte) (w : Work) : Chaining :=
  (blocksOf (ct.length / 16) ct).foldl (pcbcDecStep ks r) (chainStart iv w)

/-- The working registers before any block: a pure run starts from zeros, which nothing reads (R140). -/
def blankWork : Work := { a := 0, b := 0, c := 0, d := 0, t := 0, u := 0 }

/-- R160: PcbcEnc(s, r, pp, iv). -/
def pcbcEnc (ks : List Word) (r : Nat) (pp iv : List Byte) : List Byte :=
  (pcbcEncRun ks r pp iv blankWork).out

/-- R161: PcbcDec(s, r, ct, iv). -/
def pcbcDec (ks : List Word) (r : Nat) (ct iv : List Byte) : List Byte :=
  (pcbcDecRun ks r ct iv blankWork).out

/-- Leave the chain state, the working registers and the block index of a message command (10_state.md R36, R38, R39). -/
def State.putChaining (s : State) (x : Chaining) : State :=
  { s with
    chain      := { prevC := blockReg x.prevC, prevP := blockReg x.prevP }
    work       := x.work
    blockIndex := x.index }

/-- R164. -/
def execEncryptMsg (s : State) : Host.Outcome State Fault Refusal :=
  match s.encryptChecks with
  | some d => .next (s.raiseScrub d)
  | none =>
    let x := pcbcEncRun s.subkeys s.rounds (padBytes s.blockSize s.message) s.ivBytes s.work
    .next ((s.runKeySchedule.putChaining x).putOut x.out x.out.length).completeOk

/-- R165. A PADDING_ERROR comes after the key schedule, whose writes persist (60_exceptions.md R224); the plaintext does
not reach OUT_BUF then. -/
def execDecryptMsg (s : State) : Host.Outcome State Fault Refusal :=
  match s.decryptChecks with
  | some d => .next (s.raiseScrub d)
  | none =>
    let x := pcbcDecRun s.subkeys s.rounds s.message s.ivBytes s.work
    let s' := s.runKeySchedule.putChaining x
    match padCount s.blockSize x.out with
    | .error d => .next (s'.raiseScrub d)
    | .ok n => .next (s'.putOut x.out (s.msgLen.toNat - n)).completeOk

end Sys2Proof.Machine
end

