-- ==== Sys2Proof/Machine/Dispatch.lean ====
section
/-! DEFINITION. One arm per command: what a command does at its completion edge. -/

namespace Sys2Proof.Machine

def exec (i : Instr) (s : State) : Host.Outcome State Fault Refusal :=
  match i with
  | .nop => Sys2Proof.Machine.execNop s
  | .setRounds imm => Sys2Proof.Machine.execSetRounds imm s
  | .setBlock imm => Sys2Proof.Machine.execSetBlock imm s
  | .clearStatus => Sys2Proof.Machine.execClearStatus s
  | .expandKey => Sys2Proof.Machine.execExpandKey s
  | .blockEnc => Sys2Proof.Machine.execBlockEnc s
  | .blockDec => Sys2Proof.Machine.execBlockDec s
  | .encryptMsg => Sys2Proof.Machine.execEncryptMsg s
  | .decryptMsg => Sys2Proof.Machine.execDecryptMsg s
  | .pad => Sys2Proof.Machine.execPad s
  | .unpad => Sys2Proof.Machine.execUnpad s

end Sys2Proof.Machine
end

