-- ==== Sys2Proof/Machine/Clock.lean ====
section
/-! DEFINITION. One rising edge of clk: reset, the bus, the sequencer (spec/20_memory.md R50, R60;
spec/70_reset_and_hazards.md R250). -/

namespace Sys2Proof.Machine

/-- The completion edge of a captured command word (30_encoding.md R74). -/
def runCommandWord (w : Word) (s : State) : Host.Outcome State Fault Refusal :=
  match decode w with
  | .ok i => exec i s
  | .error e => execIllegal e s

/-- The sequencer at a rising edge, by its state before the edge (10_state.md R39). -/
def sequencerEdge (before : Sequencer) (s : State) : Host.Outcome State Fault Refusal :=
  match before with
  | .idle => .next s
  | .running w (n + 1) => .next { s with seq := .running w n }
  | .running w 0 => runCommandWord w s

/-- One rising edge with the given pins. The bus access of the edge sees the state before it; a completion at the same
edge comes after it (log entry 15). -/
def clockEdge (p : Pins) (s : State) : Host.Outcome State Fault Refusal :=
  if p.rstN then
    match busEdge p s with
    | .error f => .fault f
    | .ok s' => sequencerEdge s.seq s'
  else .next (s.resetEdge p)

/-- The pins at the coming rising edge; a host with nothing left to do is silent. -/
def State.pinsNow (s : State) : Pins := s.inputs.headD idlePins

/-- The state with the coming edge's pins taken off. -/
def State.takePins (s : State) : State := { s with inputs := s.inputs.tail }

end Sys2Proof.Machine
end

