-- ==== Sys2Proof/Machine/Step.lean ====
section
/-! DEFINITION. The step: one rising edge of clk; and where the step finds the command it runs. -/

namespace Sys2Proof.Machine

/-- One rising edge of clk. -/
def step (s : State) : Host.Outcome State Fault Refusal := clockEdge s.pinsNow s.takePins

/-- The engine fetches nothing (spec/20_memory.md R64): the command the next step runs is the word the sequencer has
captured (log entry 2). -/
def State.withFetchWord (s : State) (nbits w : Nat) : State := s.loadCommand (Sys2Proof.tableWord nbits w)

end Sys2Proof.Machine
end

