-- ==== Sys2Proof/Machine/HostProgram.lean ====
section
/-! DEFINITION. Host programs: the statements wr and rd, the pseudo-instructions and their expansions, a run, when a
command has ended and when a run is over (spec/30_encoding.md R77, R78; spec/70_reset_and_hazards.md R259, R260). -/

namespace Sys2Proof.Machine

/-- A machine statement: exactly one host bus transaction (R77). -/
inductive Stmt where
  | wr (addr : BitVec 16) (value : Word)
  | rd (addr : BitVec 16)
  deriving DecidableEq, Repr

/-- The bus request of a statement. -/
def Stmt.request : Stmt → BusReq
  | .wr a v => { we := true, addr := a, wdata := v }
  | .rd a => { we := false, addr := a, wdata := 0 }

/-- The pins while the host makes a request (20_memory.md R50). -/
def BusReq.pins (q : BusReq) : Pins :=
  { rstN := true, req := true, we := q.we, addr := q.addr, wdata := q.wdata }

/-- The edge that sees a request: the host holds it over two rising edges, this one and the one that acknowledges it
(20_memory.md R50). -/
def State.present (s : State) (q : BusReq) : Host.Outcome State Fault Refusal :=
  step { s with inputs := [q.pins, q.pins] }

/-- A pseudo-instruction, or a plain statement (R78). -/
inductive Pseudo where
  | stmt (st : Stmt)
  | cmd (i : Instr)
  | wait
  | ldw (base : BitVec 16) (ws : List Word)
  | ldkey (bytes : List Byte)
  | ldiv (bytes : List Byte)
  | ldin (bytes : List Byte)
  | expect (addr : BitVec 16) (value : Word)
  deriving DecidableEq, Repr

/-- Bytes packed four to a word in little-endian lane order, the last word's missing bytes 0 (R78). -/
def packWords : List Byte → List Word
  | b0 :: b1 :: b2 :: b3 :: bs => bytesWord b0 b1 b2 b3 :: packWords bs
  | [b0, b1, b2] => [bytesWord b0 b1 b2 0]
  | [b0, b1] => [bytesWord b0 b1 0 0]
  | [b0] => [bytesWord b0 0 0 0]
  | [] => []

/-- `ldw BASE, w0, w1, …` (R78). -/
def loadWords (base : BitVec 16) : List Word → List Stmt
  | [] => []
  | w :: ws => .wr base w :: loadWords (base + 4) ws

/-- The addresses CMD, STATUS, KEY_LEN, IV_LEN, MSG_LEN, KEY0, IV0 and IN(0) (R77, 20_memory.md R51). -/
def addrCmd : BitVec 16 := 0x0000
/-- See `addrCmd`. -/
def addrStatus : BitVec 16 := 0x0004
/-- See `addrCmd`. -/
def addrKeyLen : BitVec 16 := 0x000C
/-- See `addrCmd`. -/
def addrIvLen : BitVec 16 := 0x0010
/-- See `addrCmd`. -/
def addrMsgLen : BitVec 16 := 0x0014
/-- See `addrCmd`. -/
def addrKey0 : BitVec 16 := 0x0020
/-- See `addrCmd`. -/
def addrIv0 : BitVec 16 := 0x0040
/-- See `addrCmd`. -/
def addrIn0 : BitVec 16 := 0x4000

/-- The expansion of every pseudo-instruction but `wait`, which is a loop (R78). The claim of `expect` is the program's;
the hardware checks nothing. -/
def Pseudo.statements : Pseudo → List Stmt
  | .stmt st => [st]
  | .cmd i => [.wr addrCmd (encode i)]
  | .wait => []
  | .ldw base ws => loadWords base ws
  | .ldkey bs => loadWords addrKey0 (packWords bs) ++ [.wr addrKeyLen (BitVec.ofNat 32 bs.length)]
  | .ldiv bs => loadWords addrIv0 (packWords bs) ++ [.wr addrIvLen (BitVec.ofNat 32 bs.length)]
  | .ldin bs => loadWords addrIn0 (packWords bs) ++ [.wr addrMsgLen (BitVec.ofNat 32 bs.length)]
  | .expect a _ => [.rd a]

/-- A command that a run has issued: the opcode field of its word, and whether it has ended by R259. -/
structure Issued where
  op    : BitVec 8
  ended : Bool
  deriving DecidableEq, Repr

/-- R259: a value read from STATUS shows the end of a command with opcode field `op`: BUSY = 0 and LAST_OP = op. -/
def showsEnd (op : BitVec 8) (v : Word) : Bool := !v.getLsbD 0 && v.extractLsb' 16 8 == op

/-- R259 for the commands of a run, latest first: a value read from STATUS can end the latest one only, since a CMD write
has been accepted after every other (log entry 22). -/
def Issued.seeStatus (v : Word) : List Issued → List Issued
  | [] => []
  | c :: cs => { c with ended := c.ended || showsEnd c.op v } :: cs

/-- A run so far (R260): the engine, the values its reads returned, oldest first, and the commands it has issued, latest
first. -/
structure Run where
  state    : State
  observed : List Word
  issued   : List Issued
  deriving DecidableEq, Repr

/-- The start of a run: nothing observed, nothing issued. -/
def Run.start (s : State) : Run := { state := s, observed := [], issued := [] }

/-- Whether a statement, acknowledged at the coming edge of the state, issues a command: a CMD write while IDLE is
accepted, one while BUSY is dropped (20_memory.md R60, R61 (a)). -/
def Stmt.issues (st : Stmt) (s : State) : Bool :=
  match st with
  | .wr a _ => a == addrCmd && !s.busy
  | .rd _ => false

/-- The value that a read returned (20_memory.md R53); none for an outcome that returns no value. -/
def Response.value : Response → Option Word
  | .read v => some v
  | .error => some 0
  | .written => none
  | .noAck => none

/-- Note a statement that is acknowledged at the edge from `seen` to `done`. -/
def Run.note (r : Run) (st : Stmt) (seen done : State) : Run :=
  match st with
  | .wr _ v =>
    { r with
      state := done
      issued := if st.issues seen then { op := opField v, ended := false } :: r.issued else r.issued }
  | .rd a =>
    match done.response.value with
    | some v =>
      { state := done, observed := r.observed ++ [v]
        issued := if a = addrStatus then Issued.seeStatus v r.issued else r.issued }
    | none => { r with state := done }

/-- Run one statement; only a read returns a value (R77). -/
def Run.statement (r : Run) (st : Stmt) : Host.Outcome Run Fault Refusal :=
  match r.state.present st.request with
  | .fault f => .fault f
  | .refused x => .refused x
  | .next seen =>
    match step seen with
    | .fault f => .fault f
    | .refused x => .refused x
    | .next done => .next (r.note st seen done)

/-- Run statements in order. -/
def Run.statements (r : Run) : List Stmt → Host.Outcome Run Fault Refusal
  | [] => .next r
  | st :: sts =>
    match r.statement st with
    | .next r' => r'.statements sts
    | .fault f => .fault f
    | .refused x => .refused x

/-- Whether the last transaction was a read that returned BUSY = 0 in bit 0. -/
def State.readNotBusy (s : State) : Bool :=
  match s.response with
  | .read v => !v.getLsbD 0
  | .noAck => false
  | .written => false
  | .error => false

/-- `wait`: read STATUS until BUSY is 0, at most n times (R78). -/
def Run.poll (r : Run) : Nat → Host.Outcome Run Fault Refusal
  | 0 => .next r
  | n + 1 =>
    match r.statement (.rd addrStatus) with
    | .next r' => if r'.state.readNotBusy then .next r' else r'.poll n
    | .fault f => .fault f
    | .refused x => .refused x

/-- Run one pseudo-instruction. A `wait` ends within LATENCY + 1 reads, since a command completes within LATENCY cycles
(R256). -/
def Run.pseudo (r : Run) : Pseudo → Host.Outcome Run Fault Refusal
  | .wait => r.poll (r.state.params.latency + 1)
  | p => r.statements p.statements

/-- Run a host program (R260). -/
def Run.program (r : Run) : List Pseudo → Host.Outcome Run Fault Refusal
  | [] => .next r
  | p :: ps =>
    match r.pseudo p with
    | .next r' => r'.program ps
    | .fault f => .fault f
    | .refused x => .refused x

/-- R260: a run is over when every command it issued has ended by R259 and no command is busy. -/
def Run.isOver (r : Run) : Bool := r.issued.all (fun c => c.ended) && !r.state.busy

/-- R260: the observation of a run that is over, the values its reads returned and the engine state at its end. -/
def Run.observation (r : Run) : Option (List Word × State) :=
  if r.isOver then some (r.observed, r.state) else none

end Sys2Proof.Machine
end

