-- ==== Sys2Proof/Safety.lean ====
section
/-! DEFINITION. The terms in which claims are stated: the invariant of the machine, a lawful host, and what a command
leaves behind. -/

namespace Sys2Proof.Machine

/-! ### The invariant -/

/-- Whether a host byte address is a byte of the subkey RAM, of IN_BUF or of OUT_BUF (20_memory.md R51). -/
abbrev isRam (bufBytes a : Nat) : Prop :=
  (sBase ≤ a ∧ a < sBase + 4 * Config.tMax) ∨ (inBase ≤ a ∧ a < inBase + bufBytes)
    ∨ (outBase ≤ a ∧ a < outBase + bufBytes)

/-- What every step keeps. `config`, `subkeyCount` and `outLen` are 10_state.md R44, `result` is R24, `sticky` is R22's
rule for STICKY_ERR, `running` is 20_memory.md R60 and R61 (b) with 70_reset_and_hazards.md R256; `memory` is the model's
canonical form of the RAMs (log entry 7). -/
structure State.Inv (s : State) : Prop where
  params      : s.params.Legal
  memory      : s.mem.wf
  ram         : ∀ c ∈ s.mem, isRam s.params.bufBytes c.1
  config      : s.config.blockBytes = 0 ∨ s.config.blockBytes = 16
  subkeyCount : s.subkeyCount = 0 ∨ ∃ r, 1 ≤ r ∧ r ≤ Config.rMax ∧ s.subkeyCount.toNat = 2 * r + 4
  outLen      : s.outLen.toNat ≤ s.params.bufBytes
  result      : s.status.result = s.status.detail.result
  sticky      : s.status.detail ≠ .none → s.status.stickyErr = true
  running     : ∀ w n, s.seq = .running w n →
                  n < s.params.latency ∧ s.status.lastOp = opField w ∧ s.status.detail = .none

/-! ### A lawful host -/

/-- The pins at the coming edges keep the bus protocol (20_memory.md R50), given the request being acknowledged: such a
request is held, unless reset is asserted: a reset edge compares no pins (log entry 13) and sees the request on them anew
(log entry 14). -/
def LawfulPins : Option BusReq → List Pins → Prop
  | none, [] => True
  | some _, [] => False
  | none, p :: ps => LawfulPins p.request ps
  | some q, p :: ps => if p.rstN then p.holds q = true ∧ LawfulPins none ps else LawfulPins p.request ps

/-! ### What a command leaves behind -/

/-- KEY_LEN is legal (10_state.md R26). -/
abbrev State.KeyLenLegal (s : State) : Prop := s.keyLen = 16 ∨ s.keyLen = 24 ∨ s.keyLen = 32

/-- CONFIG is set for the cipher commands (60_exceptions.md R222 step 2). -/
abbrev State.CipherConfigured (s : State) : Prop := s.config.rounds ≠ 0 ∧ s.config.blockBytes ≠ 0

/-- Successful completion (60_exceptions.md R223): RESULT and DETAIL 0, the other STATUS fields kept, IDLE. -/
def Completes (s t : State) : Prop :=
  t.status = { s.status with result := .ok, detail := .none } ∧ t.seq = .idle

/-- Error completion (60_exceptions.md R224): RESULT k, DETAIL d, STICKY_ERR 1, the other STATUS fields kept, IDLE. -/
def Raises (s t : State) (k : ResultCode) (d : DetailCode) : Prop :=
  t.status = { s.status with result := k, detail := d, stickyErr := true } ∧ t.seq = .idle

/-- The output scrub (60_exceptions.md R225): every OUT_BUF byte and OUT_LEN are 0. -/
def OutputScrubbed (t : State) : Prop :=
  (∀ o, o < t.params.bufBytes → t.byteAt (outBase + o) = 0) ∧ t.outLen = 0

/-- OUT[0 .. bs.length) are the bytes bs. -/
def HoldsOutput (t : State) (bs : List Byte) : Prop :=
  ∀ o, o < bs.length → t.byteAt (outBase + o) = bs.getD o 0

/-- S[0 .. ks.length) are the words ks, and SUBKEY_COUNT is their number (41_key_schedule.md R125). -/
def HoldsSubkeys (t : State) (ks : List Word) : Prop :=
  (∀ k, k < ks.length → t.wordAt (sBase + 4 * k) = ks.getD k 0) ∧ t.subkeyCount = BitVec.ofNat 32 ks.length

/-- A byte address of S[0 .. n). -/
abbrev inSubkeys (n a : Nat) : Prop := sBase ≤ a ∧ a < sBase + 4 * n

/-- A byte address of OUT[0 .. n). -/
abbrev inOutput (n a : Nat) : Prop := outBase ≤ a ∧ a < outBase + n

/-- Every byte of RAM outside some addresses reads as before. -/
def RamUnchangedOutside (inside : Nat → Prop) (s t : State) : Prop :=
  ∀ a, ¬ inside a → t.byteAt a = s.byteAt a

/-- t differs from s in STATUS and the sequencer only. -/
def OnlyStatus (s t : State) : Prop := t = { s with status := t.status, seq := t.seq }

/-- t differs from s in STATUS, the sequencer, RAM and OUT_LEN only. -/
def OnlyOutput (s t : State) : Prop :=
  t = { s with status := t.status, seq := t.seq, mem := t.mem, outLen := t.outLen }

/-- t differs from s in STATUS, the sequencer, RAM, SUBKEY_COUNT and the key schedule scratch only. -/
def OnlySchedule (s t : State) : Prop :=
  t = { s with status := t.status, seq := t.seq, mem := t.mem, subkeyCount := t.subkeyCount, scratch := t.scratch }

/-- t differs from s in STATUS, the sequencer, RAM, OUT_LEN, SUBKEY_COUNT and the hidden registers only. -/
def OnlyCipher (s t : State) : Prop :=
  t = { s with status := t.status, seq := t.seq, mem := t.mem, outLen := t.outLen, subkeyCount := t.subkeyCount,
               scratch := t.scratch, work := t.work, chain := t.chain, blockIndex := t.blockIndex }

/-- An error completion that changes nothing else. -/
def FailsPlainly (s t : State) (k : ResultCode) (d : DetailCode) : Prop := Raises s t k d ∧ OnlyStatus s t

/-- An error completion with the output scrub, S and SUBKEY_COUNT unchanged. -/
def FailsScrubbed (s t : State) (k : ResultCode) (d : DetailCode) : Prop :=
  Raises s t k d ∧ OnlyOutput s t ∧ OutputScrubbed t ∧ RamUnchangedOutside (inOutput s.params.bufBytes) s t

end Sys2Proof.Machine
end

