-- ==== Sys2Proof/Certificates/Slice0/Obligations.lean ====
section
/-! DEFINITION. The statements for the provers. Each docstring names the rules of spec/ it formalises. -/

open Sys2Proof Sys2Proof.Machine

/-! ### Reset and the invariant -/

/-- 10_state.md R42. The hidden registers, which R42 gives no value, are left out. -/
def Obligations.ResetValues : Prop :=
  State.reset = State.resetOf { bufBytes := 4096, latency := State.reset.params.latency } ∧
  ∀ p : Params,
    (State.resetOf p).params = p ∧ (State.resetOf p).statusWord = 0 ∧ (State.resetOf p).configWord = 0 ∧
    (∀ n : Fin 8, (State.resetOf p).key[n] = 0) ∧ (State.resetOf p).keyLen = 0 ∧
    (∀ n : Fin 4, (State.resetOf p).iv[n] = 0) ∧ (State.resetOf p).ivLen = 0 ∧ (State.resetOf p).msgLen = 0 ∧
    (State.resetOf p).outLen = 0 ∧ (State.resetOf p).subkeyCount = 0 ∧ (State.resetOf p).seq = .idle ∧
    ∀ a, (State.resetOf p).byteAt a = Config.ramAtReset (State.resetOf p).resets a

/-- The reset state meets the invariant, for every instance with legal parameters. -/
def Obligations.ResetSatisfiesInvariant : Prop :=
  State.reset.Inv ∧ ∀ p : Params, p.Legal → (State.resetOf p).Inv

/-- 10_state.md R44, R24, R22, with the canonical form of the RAMs: every step keeps the invariant. -/
def Obligations.StepKeepsInvariant : Prop :=
  ∀ s t : State, s.Inv → step s = .next t → t.Inv

/-- 70_reset_and_hazards.md R250, R251: a rising edge with rst_n = 0. The hidden registers are left out; the RAM contents
are free values of a new index. -/
def Obligations.ResetEdge : Prop :=
  ∀ (s : State) (p : Pins) (ps : List Pins), s.inputs = p :: ps → p.rstN = false →
    ∃ t, step s = .next t ∧ t.response = .noAck ∧ t.seq = .idle ∧
      (∀ a, t.byteAt a = Config.ramAtReset (s.resets + 1) a) ∧
      t = { State.resetOf s.params with
              work := t.work, scratch := t.scratch, chain := t.chain, blockIndex := t.blockIndex,
              pending := t.pending, inputs := ps, draws := s.draws, resets := s.resets + 1 }

/-! ### Encoding -/

/-- 30_encoding.md R70 to R73: decoding the word of a well-formed command gives the command back. -/
def Obligations.DecodeEncodeRoundTrip : Prop :=
  ∀ i : Instr, i.wellFormed = true → decode (encode i) = .ok i

/-- 30_encoding.md R70 to R74: a word that decodes is the one word of its command, and the command is well formed. -/
def Obligations.EncodeDecodeRoundTrip : Prop :=
  ∀ (w : Word) (i : Instr), decode w = .ok i → i.wellFormed = true ∧ encode i = w

/-- 30_encoding.md R74, R75: exactly the reserved OP values are unknown opcodes, whatever ARG is; exactly the format-N
opcodes with ARG ≠ 0 are refused for their argument. -/
def Obligations.IllegalWordsAreTheReservedOnes : Prop :=
  (∀ w : Word, decode w = .error .unknownOpcode ↔
    ((0x04 ≤ w.toNat % 256 ∧ w.toNat % 256 ≤ 0x0F) ∨ (0x13 ≤ w.toNat % 256 ∧ w.toNat % 256 ≤ 0x1F) ∨
     (0x22 ≤ w.toNat % 256 ∧ w.toNat % 256 ≤ 0x2F) ∨ (0x32 ≤ w.toNat % 256 ∧ w.toNat % 256 ≤ 0xFF))) ∧
  (∀ w : Word, decode w = .error .nonzeroArg ↔
    (w.toNat % 256 ∈ [0x00, 0x03, 0x10, 0x11, 0x12, 0x20, 0x21, 0x30, 0x31] ∧ w.toNat / 256 ≠ 0))

/-- Words written out from the patterns of spec/opcode_table.json (30_encoding.md R73). -/
def Obligations.SampleWordsDecode : Prop :=
  decode 0b00000000000000000000000000000000#32 = .ok .nop ∧
  decode 0b00000000000000000001010000000001#32 = .ok (.setRounds 20) ∧
  decode 0b00000000000000000001000000000010#32 = .ok (.setBlock 16) ∧
  decode 0b11111111111111111111111100000001#32 = .ok (.setRounds 16777215) ∧
  decode 0b00000000000000000000000000010000#32 = .ok .expandKey ∧
  decode 0b00000000000000000000000000010010#32 = .ok .blockDec ∧
  decode 0b00000000000000000000000000100001#32 = .ok .decryptMsg ∧
  decode 0b00000000000000000000000000110000#32 = .ok .pad ∧
  decode 0b00000000000000000000000100000000#32 = .error .nonzeroArg ∧
  decode 0b11111111111111111111111111111111#32 = .error .unknownOpcode

/-- 30_encoding.md R70, R72: the immediate of a format-I word is cmd[31:8], neither scaled nor sign-extended. -/
def Obligations.ImmediateIsTheUpperBits : Prop :=
  ∀ imm : Nat, imm < 2 ^ 24 →
    decode (BitVec.ofNat 32 (imm * 256 + 0x01)) = .ok (.setRounds imm) ∧
    decode (BitVec.ofNat 32 (imm * 256 + 0x02)) = .ok (.setBlock imm)

/-! ### The step -/

/-- 10_state.md R39, 20_memory.md R60: at the completion edge of a captured word, the step is exec of the command it
decodes to, at the state after the edge's bus activity; with a silent host that is the state with no ack. That the bus
activity of the same edge comes first is the model's reading (log entry 15, DEDUCED). -/
def Obligations.StepRunsDecodedCommand : Prop :=
  (∀ (s s' : State) (w : Word) (i : Instr), s.seq = .running w 0 → decode w = .ok i → s.pinsNow.rstN = true →
    busEdge s.pinsNow s.takePins = .ok s' → step s = exec i s') ∧
  (∀ (s : State) (w : Word) (i : Instr), s.seq = .running w 0 → decode w = .ok i → s.inputs = [] → s.pending = none →
    step s = exec i { s with response := .noAck })

/-- The word that withFetchWord places is the one the very next step runs (log entry 2). -/
def Obligations.PlacedWordRunsNext : Prop :=
  ∀ (s : State) (i : Instr), i.wellFormed = true →
    step (s.withFetchWord 32 (encode i).toNat) = exec i { s.loadCommand (encode i) with response := .noAck }

/-- 45_control.md R204: an illegal word is accepted and completes; it writes STATUS only. (`draws` is the model's own
counter of free values.) -/
def Obligations.IllegalWordWritesStatusOnly : Prop :=
  ∀ (s : State) (w : Word),
    (decode w = .error .unknownOpcode →
      runCommandWord w (s.accept w) = .next { s with
        status := { s.status with stickyErr := true, result := .illegalCmd, detail := .unknownOpcode,
                                  lastOp := w.extractLsb' 0 8 }
        seq := .idle, draws := s.draws + 1 }) ∧
    (decode w = .error .nonzeroArg →
      runCommandWord w (s.accept w) = .next { s with
        status := { s.status with stickyErr := true, result := .illegalCmd, detail := .nonzeroArg,
                                  lastOp := w.extractLsb' 0 8 }
        seq := .idle, draws := s.draws + 1 })

/-- 20_memory.md R60, 30_encoding.md R74: what the acceptance of a command writes, and nothing else. -/
def Obligations.AcceptanceWrites : Prop :=
  ∀ (s : State) (w : Word), 1 ≤ s.params.latency → s.busy = false →
    ∃ t n, s.hostAccess { we := true, addr := 0x0000, wdata := w } = t ∧ n < s.params.latency ∧ t.busy = true ∧
      t = { s with
              status := { s.status with result := .ok, detail := .none, lastOp := w.extractLsb' 0 8 }
              seq := .running w n, response := .written, draws := s.draws + 1 }

/-- 20_memory.md R57, R60, R61, 70_reset_and_hazards.md R255: whatever the host does on the bus while a command runs, short
of reset, the command's completion state is its function of the state at acceptance; only WR_IGNORED, the bus and the
model's own counter of draws tell the difference. That an access at the completion edge itself still counts as one while
the command runs is the model's reading (log entry 15, DEDUCED). -/
def Obligations.CommandIsOneTransition : Prop :=
  ∀ (s t : State) (w : Word) (n : Nat), s.seq = .running w n → (∀ p ∈ s.inputs.take (n + 1), p.rstN = true) →
    Host.Core.run Sys2Proof.core (n + 1) s = .next t →
    ∃ u : State, runCommandWord w s = .next u ∧ t.seq = .idle ∧
      t = { u with status := { u.status with wrIgnored := t.status.wrIgnored }
                   pending := t.pending, response := t.response, inputs := t.inputs, draws := t.draws }

/-- 70_reset_and_hazards.md R256: an accepted command stays busy for some number of cycles from 1 to LATENCY, whatever a
lawful host does on the bus short of reset. That a CMD write acknowledged at the completion edge itself is dropped, and so
leaves the engine not busy after that edge, is the model's reading (log entry 15, DEDUCED); the least length of one cycle
and the free length up to LATENCY are those of log entry 5. -/
def Obligations.CommandCompletesWithinLatency : Prop :=
  ∀ (s : State) (w : Word), 1 ≤ s.params.latency → LawfulPins s.pending s.inputs → (∀ p ∈ s.inputs, p.rstN = true) →
    ∃ k, 1 ≤ k ∧ k ≤ s.params.latency ∧
      (∃ t, Host.Core.run Sys2Proof.core k (s.accept w) = .next t ∧ t.busy = false) ∧
      ∀ j, j < k → ∃ t, Host.Core.run Sys2Proof.core j (s.accept w) = .next t ∧ t.busy = true

/-! ### The host bus -/

/-- 20_memory.md R50: a request is seen at one edge and acknowledged at the next, whether or not a command runs; then the
next request may come. -/
def Obligations.BusHandshake : Prop :=
  ∀ (s : State) (p : Pins) (ps : List Pins), s.inputs = p :: p :: ps → p.rstN = true → p.req = true →
    s.pending = none →
    ∃ t u, step s = .next t ∧ t.response = .noAck ∧ t.pending.isSome = true ∧
      step t = .next u ∧ u.response ≠ .noAck ∧ u.pending = none ∧ u.inputs = ps

/-- 20_memory.md R50, R67, 93_implementation_defined.md U12: the step stops exactly when the host has dropped or changed a
request before its ack; no step refuses. That the pins are not compared at a reset edge is the model's reading (log
entry 13, DEDUCED). -/
def Obligations.OnlyProtocolViolationStops : Prop :=
  (∀ s : State, step s = .fault .hostProtocolViolation ↔
    s.pinsNow.rstN = true ∧ ∃ q, s.pending = some q ∧
      (s.pinsNow.req = false ∨ s.pinsNow.we ≠ q.we ∨ s.pinsNow.addr ≠ q.addr ∨
        s.pinsNow.wdata ≠ q.wdata)) ∧
  ∀ (s : State) (r : Refusal), step s ≠ .refused r

/-- 60_exceptions.md R227, 20_memory.md R50, 70_reset_and_hazards.md R250: with a host that keeps the bus protocol the
engine never stops. That a request on the pins at a reset edge is seen there, which drops the one pending before it, is the
model's reading (log entry 14, DEDUCED), and so is that the pins are not compared at a reset edge (log entry 13, DEDUCED);
`LawfulPins` follows both. -/
def Obligations.LawfulHostNeverStops : Prop :=
  ∀ (k : Nat) (s : State), LawfulPins s.pending s.inputs → ∃ t, Host.Core.run Sys2Proof.core k s = .next t

/-- 20_memory.md R51 to R53, 60_exceptions.md R226: a misaligned access, an unmapped address or a write to a read-only
address gets the error response and changes nothing, busy or not; every other access gets a normal response. -/
def Obligations.BusErrorsHaveNoEffect : Prop :=
  ∀ (s : State) (q : BusReq), s.params.Legal →
    if q.addr.toNat % 4 ≠ 0 ∨
       ¬ (q.addr.toNat < 0x0050 ∨ (0x1000 ≤ q.addr.toNat ∧ q.addr.toNat < 0x1808) ∨
          (0x4000 ≤ q.addr.toNat ∧ q.addr.toNat < 0x4000 + s.params.bufBytes) ∨
          (0x8000 ≤ q.addr.toNat ∧ q.addr.toNat < 0x8000 + s.params.bufBytes)) ∨
       (q.we = true ∧
         (q.addr.toNat = 0x0004 ∨ q.addr.toNat = 0x0008 ∨ q.addr.toNat = 0x0018 ∨ q.addr.toNat = 0x001C ∨
          (0x1000 ≤ q.addr.toNat ∧ q.addr.toNat < 0x1808) ∨ 0x8000 ≤ q.addr.toNat))
    then s.hostAccess q = { s with response := .error }
    else (s.hostAccess q).response ≠ .error ∧ (s.hostAccess q).response ≠ .noAck

/-- 20_memory.md R61: access while busy. (a) a write to a writable place is dropped and recorded; (b) STATUS reads
exactly; (c) any other read returns some value and changes nothing. (d), the address checks, are BusErrorsHaveNoEffect.
(`draws` is the model's own counter of free values.) -/
def Obligations.AccessWhileBusy : Prop :=
  ∀ (s : State) (q : BusReq) (w : Word) (n : Nat), s.Inv → s.seq = .running w n →
    (s.hostAccess q).response ≠ .error →
    (q.we = true → s.hostAccess q =
      { s with status := { s.status with wrIgnored := true }, response := .written }) ∧
    (q.we = false → q.addr = 0x0004 → ∃ v : Word, s.hostAccess q = { s with response := .read v } ∧
      v = s.statusWord ∧ v.getLsbD 0 = true ∧ v.extractLsb' 4 4 = 0 ∧ v.extractLsb' 8 8 = 0 ∧
      v.extractLsb' 16 8 = w.extractLsb' 0 8) ∧
    (q.we = false → q.addr ≠ 0x0004 → ∃ v : Word, s.hostAccess q =
      { s with response := .read v, draws := s.draws + 1 })

/-- 20_memory.md R56, R58: while IDLE a read returns the value last written to its address, for every writable address but
CMD, and a write changes what no other address reads. -/
def Obligations.ReadReturnsLastWrite : Prop :=
  ∀ (s : State) (a b : BitVec 16) (v x : Word), s.params.Legal → s.busy = false → a ≠ 0x0000 →
    (s.hostAccess { we := true, addr := a, wdata := v }).response = .written →
    ((s.hostAccess { we := true, addr := a, wdata := v }).hostAccess { we := false, addr := b, wdata := x }).response =
      if b = a then .read v else (s.hostAccess { we := false, addr := b, wdata := x }).response

/-- 20_memory.md R55: byte lanes are little-endian in IN_BUF, OUT_BUF, KEY and IV; a write of an IN_BUF word changes no
other byte of RAM. -/
def Obligations.ByteLanesAreLittleEndian : Prop :=
  (∀ (s : State) (q : Nat) (v : Word), s.params.Legal → s.busy = false → 4 * q < s.params.bufBytes →
    ∃ t, s.hostAccess { we := true, addr := BitVec.ofNat 16 (0x4000 + 4 * q), wdata := v } = t ∧
      (∀ i, i < 4 → t.byteAt (inBase + 4 * q + i) = v.extractLsb' (8 * i) 8) ∧
      RamUnchangedOutside (fun a => inBase + 4 * q ≤ a ∧ a < inBase + 4 * q + 4) s t ∧
      t = { s with mem := t.mem, response := .written }) ∧
  (∀ (s : State) (q : Nat) (x : Word), s.params.Legal → s.busy = false → 4 * q < s.params.bufBytes →
    ∃ v : Word, s.hostAccess { we := false, addr := BitVec.ofNat 16 (0x8000 + 4 * q), wdata := x } =
        { s with response := .read v } ∧
      ∀ i, i < 4 → v.extractLsb' (8 * i) 8 = s.byteAt (outBase + 4 * q + i)) ∧
  (∀ (s : State) (k : Fin 32), k.val < s.keyLen.toNat →
    s.keyBytes[k.val]? = some (s.key[k.val / 4].extractLsb' (8 * (k.val % 4)) 8)) ∧
  (∀ (s : State) (k : Fin 16), s.ivBytes[k.val]? = some (s.iv[k.val / 4].extractLsb' (8 * (k.val % 4)) 8))

/-- 20_memory.md R56: no read has a side effect; a read of CMD while IDLE returns 0 (10_state.md R32). (`draws` is the
model's own counter of free values.) -/
def Obligations.ReadsHaveNoSideEffect : Prop :=
  (∀ (s : State) (a : BitVec 16) (x : Word), ∃ t, s.hostAccess { we := false, addr := a, wdata := x } = t ∧
    t = { s with response := t.response, draws := t.draws }) ∧
  (∀ (s : State) (x : Word), s.busy = false →
    s.hostAccess { we := false, addr := 0x0000, wdata := x } = { s with response := .read 0 })

/-- 10_state.md R21 to R24, 20_memory.md R54: where the fields of STATUS and CONFIG stand, that the reserved ones read 0,
and the numeric RESULT and DETAIL codes, each DETAIL code with its RESULT code. -/
def Obligations.StatusAndConfigLayout : Prop :=
  ([ResultCode.ok, .configError, .argError, .formatError, .paddingError, .illegalCmd].map fun k => k.code.toNat) =
    [0, 1, 2, 3, 4, 5] ∧
  ([DetailCode.none, .roundsRange, .blockSizeUnsupported, .notConfigured].map fun d => (d.code.toNat, d.result)) =
    [(0x00, .ok), (0x01, .configError), (0x02, .configError), (0x03, .configError)] ∧
  ([DetailCode.keyLen, .ivLen, .msgLenRange, .ctNotBlockMultiple].map fun d => (d.code.toNat, d.result)) =
    [(0x10, .argError), (0x11, .argError), (0x12, .argError), (0x20, .formatError)] ∧
  ([DetailCode.padEmpty, .padZero, .padGtBlock, .padGtLen, .padMismatch].map fun d => (d.code.toNat, d.result)) =
    [(0x30, .paddingError), (0x31, .paddingError), (0x32, .paddingError), (0x33, .paddingError),
     (0x34, .paddingError)] ∧
  ([DetailCode.unknownOpcode, .nonzeroArg].map fun d => (d.code.toNat, d.result)) =
    [(0x40, .illegalCmd), (0x41, .illegalCmd)] ∧
  ∀ s : State,
    s.statusWord.getLsbD 0 = s.busy ∧ s.statusWord.getLsbD 1 = s.status.stickyErr ∧
    s.statusWord.getLsbD 2 = s.status.wrIgnored ∧ s.statusWord.getLsbD 3 = false ∧
    s.statusWord.extractLsb' 4 4 = s.status.result.code ∧ s.statusWord.extractLsb' 8 8 = s.status.detail.code ∧
    s.statusWord.extractLsb' 16 8 = s.status.lastOp ∧ s.statusWord.extractLsb' 24 8 = 0 ∧
    s.configWord.extractLsb' 0 8 = s.config.rounds ∧ s.configWord.extractLsb' 8 8 = s.config.blockBytes ∧
    s.configWord.extractLsb' 16 16 = 0

/-! ### Control commands -/

/-- 45_control.md R200. -/
def Obligations.NopOnlyCompletes : Prop :=
  ∀ s : State,
    decode 0x00000000#32 = .ok .nop ∧
    exec .nop s = .next { s with status := { s.status with result := .ok, detail := .none }, seq := .idle } ∧
    (s.accept 0x00000000#32).status = { s.status with result := .ok, detail := .none, lastOp := 0x00 } ∧
    (s.accept 0x00000000#32).busy = true

/-- 45_control.md R201. -/
def Obligations.SetRoundsWritesRounds : Prop :=
  ∀ (s : State) (imm : Nat),
    (imm < 2 ^ 24 → decode (BitVec.ofNat 32 imm <<< 8 ||| 0x01#32) = .ok (.setRounds imm)) ∧
    (1 ≤ imm → imm ≤ 255 → ∃ t, exec (.setRounds imm) s = .next t ∧ t.config.rounds.toNat = imm ∧
      t = { s with config := { s.config with rounds := t.config.rounds }
                   status := { s.status with result := .ok, detail := .none }, seq := .idle }) ∧
    (imm = 0 ∨ 255 < imm → exec (.setRounds imm) s = .next { s with
      status := { s.status with result := .configError, detail := .roundsRange, stickyErr := true }, seq := .idle })

/-- 45_control.md R202. -/
def Obligations.SetBlockAcceptsSixteenOnly : Prop :=
  ∀ (s : State),
    (∀ imm : Nat, imm < 2 ^ 24 → decode (BitVec.ofNat 32 imm <<< 8 ||| 0x02#32) = .ok (.setBlock imm)) ∧
    (∃ t, exec (.setBlock 16) s = .next t ∧ t.config.blockBytes.toNat = 16 ∧
      t = { s with config := { s.config with blockBytes := t.config.blockBytes }
                   status := { s.status with result := .ok, detail := .none }, seq := .idle }) ∧
    ∀ imm : Nat, imm ≠ 16 → exec (.setBlock imm) s = .next { s with
      status := { s.status with result := .configError, detail := .blockSizeUnsupported, stickyErr := true }
      seq := .idle }

/-- 45_control.md R203. -/
def Obligations.ClearStatusClearsStickyBits : Prop :=
  decode 0x00000003#32 = .ok .clearStatus ∧
  ∀ s : State, exec .clearStatus s = .next { s with
    status := { s.status with result := .ok, detail := .none, stickyErr := false, wrIgnored := false }, seq := .idle }

/-! ### Primitives -/

/-- 40_primitives.md R103, R104: the rotations are those of 32-bit words, by the count modulo 32, and undo each other. -/
def Obligations.RotationLaws : Prop :=
  ∀ (x : Word) (n : Nat), rotl32 x n = x.rotateLeft n ∧ rotr32 x n = x.rotateRight n ∧
    rotr32 (rotl32 x n) n = x ∧ rotl32 (rotr32 x n) n = x

/-- 40_primitives.md R107: LEBytes and LEWords undo each other. -/
def Obligations.WordCodecLaws : Prop :=
  (∀ ws : List Word, leWords (leBytes ws) = ws ∧ (leBytes ws).length = 4 * ws.length) ∧
  (∀ x : List Byte, x.length % 4 = 0 → leBytes (leWords x) = x) ∧
  (∀ (ws : List Word) (k i : Nat), k < ws.length → i < 4 →
    (leBytes ws)[4 * k + i]? = some ((ws.getD k 0).extractLsb' (8 * i) 8))

/-- 40_primitives.md R108: block xor is bytewise, and the same as word-wise xor of the decoded words; the zero block is its
identity. -/
def Obligations.BlockXorLaws : Prop :=
  (∀ x y : List Byte, x.length = y.length → (xorBytes x y).length = x.length ∧
    ∀ i, i < x.length → (xorBytes x y).getD i 0 = x.getD i 0 ^^^ y.getD i 0) ∧
  (∀ x y : List Byte, x.length = y.length → x.length % 4 = 0 →
    leWords (xorBytes x y) = List.zipWith (fun a b => a ^^^ b) (leWords x) (leWords y)) ∧
  (∀ x : List Byte, x.length = 16 → xorBytes x zero16 = x ∧ xorBytes zero16 x = x)

/-! ### Key schedule -/

/-- 41_key_schedule.md R123. -/
def Obligations.InitialSubkeyTable : Prop :=
  ∀ t : Nat, (initialSubkeys t).length = t ∧ (0 < t → (initialSubkeys t).getD 0 0 = 0xB7E15163#32) ∧
    ∀ i, 1 ≤ i → i < t →
      (initialSubkeys t).getD i 0 = (initialSubkeys t).getD (i - 1) 0 + 0x9E3779B9#32

/-- 41_key_schedule.md R121, R122, R124, R126 (a): Expand(key, r) is the S left by 3·max(c, t) iterations of the loop on
t = 2r + 4 subkeys and c = len(key) / 4 key words; the loop starts from L = LEWords(key), the initial subkeys, and A, B,
ii and j 0; after n iterations the indices are n modulo t and n modulo c, and an iteration gives S[ii] the new A and L[j]
the new B. -/
def Obligations.KeyScheduleLoop : Prop :=
  (∀ (key : List Byte) (r : Nat), (expand key r).length = 2 * r + 4) ∧
  (∀ (key : List Byte) (r : Nat), ∃ t c z, t = 2 * r + 4 ∧ c = key.length / 4 ∧
    (List.range (3 * max c t)).foldl (mixStep t c) (mixStart key t) = z ∧ expand key r = z.s) ∧
  (∀ (key : List Byte) (t : Nat), ∃ z, mixStart key t = z ∧ z.l = leWords key ∧ z.s = initialSubkeys t ∧
    z.a = 0 ∧ z.b = 0 ∧ z.ii = 0 ∧ z.j = 0) ∧
  ∀ (key : List Byte) (t c n : Nat), 0 < t → 0 < c → key.length = 4 * c →
    ∃ x y, (List.range n).foldl (mixStep t c) (mixStart key t) = x ∧
      (List.range (n + 1)).foldl (mixStep t c) (mixStart key t) = y ∧
      x.ii = n % t ∧ x.j = n % c ∧ x.s.length = t ∧ x.l.length = c ∧
      y.a = (x.s.getD x.ii 0 + x.a + x.b).rotateLeft 3 ∧
      y.b = (x.l.getD x.j 0 + y.a + x.b).rotateLeft ((y.a + x.b).toNat % 32) ∧
      y.s.getD x.ii 0 = y.a ∧ y.l.getD x.j 0 = y.b ∧
      (∀ i, i ≠ x.ii → y.s.getD i 0 = x.s.getD i 0) ∧ (∀ i, i ≠ x.j → y.l.getD i 0 = x.l.getD i 0)

/-- 41_key_schedule.md R125, R127. -/
def Obligations.ExpandKeyCommand : Prop :=
  decode 0x00000010#32 = .ok .expandKey ∧
  ∀ s : State,
    (s.CipherConfigured → s.KeyLenLegal →
      ∃ t, exec .expandKey s = .next t ∧ Completes s t ∧ OnlySchedule s t ∧
        HoldsSubkeys t (expand s.keyBytes s.rounds) ∧ t.subkeyCount.toNat = 2 * s.rounds + 4 ∧
        RamUnchangedOutside (inSubkeys (2 * s.rounds + 4)) s t) ∧
    (¬ s.CipherConfigured → ∃ t, exec .expandKey s = .next t ∧ FailsPlainly s t .configError .notConfigured) ∧
    (s.CipherConfigured → ¬ s.KeyLenLegal → ∃ t, exec .expandKey s = .next t ∧ FailsPlainly s t .argError .keyLen)

/-! ### Block transform -/

/-- 42_block_transform.md R143. -/
def Obligations.BlockTransformInverse : Prop :=
  ∀ (key : List Byte) (r : Nat) (blk : List Byte), 1 ≤ r → r ≤ 255 →
    (key.length = 16 ∨ key.length = 24 ∨ key.length = 32) → blk.length = 16 →
    decBlock (expand key r) r (encBlock (expand key r) r blk) = blk ∧
    encBlock (expand key r) r (decBlock (expand key r) r blk) = blk

/-- 42_block_transform.md R144. -/
def Obligations.BlockEncCommand : Prop :=
  decode 0x00000011#32 = .ok .blockEnc ∧
  ∀ s : State,
    (s.CipherConfigured → s.KeyLenLegal →
      ∃ t, exec .blockEnc s = .next t ∧ Completes s t ∧ OnlyCipher s t ∧
        HoldsSubkeys t (expand s.keyBytes s.rounds) ∧
        HoldsOutput t (encBlock (expand s.keyBytes s.rounds) s.rounds (s.inBytes 16)) ∧ t.outLen = 16 ∧
        RamUnchangedOutside (fun a => inSubkeys (2 * s.rounds + 4) a ∨ inOutput 16 a) s t) ∧
    (¬ s.CipherConfigured → ∃ t, exec .blockEnc s = .next t ∧ FailsScrubbed s t .configError .notConfigured) ∧
    (s.CipherConfigured → ¬ s.KeyLenLegal → ∃ t, exec .blockEnc s = .next t ∧ FailsScrubbed s t .argError .keyLen)

/-- 42_block_transform.md R145. -/
def Obligations.BlockDecCommand : Prop :=
  decode 0x00000012#32 = .ok .blockDec ∧
  ∀ s : State,
    (s.CipherConfigured → s.KeyLenLegal →
      ∃ t, exec .blockDec s = .next t ∧ Completes s t ∧ OnlyCipher s t ∧
        HoldsSubkeys t (expand s.keyBytes s.rounds) ∧
        HoldsOutput t (decBlock (expand s.keyBytes s.rounds) s.rounds (s.inBytes 16)) ∧ t.outLen = 16 ∧
        RamUnchangedOutside (fun a => inSubkeys (2 * s.rounds + 4) a ∨ inOutput 16 a) s t) ∧
    (¬ s.CipherConfigured → ∃ t, exec .blockDec s = .next t ∧ FailsScrubbed s t .configError .notConfigured) ∧
    (s.CipherConfigured → ¬ s.KeyLenLegal → ∃ t, exec .blockDec s = .next t ∧ FailsScrubbed s t .argError .keyLen)

/-! ### PCBC -/

/-- 43_pcbc.md R160: the recurrence of encryption, block by block. -/
def Obligations.PcbcEncryptionRecurrence : Prop :=
  ∀ (ks : List Word) (r : Nat) (pp iv : List Byte), pp.length % 16 = 0 → iv.length = 16 →
    (pcbcEnc ks r pp iv).length = pp.length ∧
    (0 < pp.length → blockAt 0 (pcbcEnc ks r pp iv) = encBlock ks r (xorBytes (blockAt 0 pp) iv)) ∧
    ∀ k, 1 ≤ k → k < pp.length / 16 →
      blockAt k (pcbcEnc ks r pp iv) =
        encBlock ks r (xorBytes (xorBytes (blockAt k pp) (blockAt (k - 1) (pcbcEnc ks r pp iv))) (blockAt (k - 1) pp))

/-- 43_pcbc.md R161: the recurrence of decryption, and that it inverts encryption. -/
def Obligations.PcbcDecryptionInverts : Prop :=
  ∀ (ks : List Word) (r : Nat) (iv : List Byte), iv.length = 16 →
    (∀ ct : List Byte, ct.length % 16 = 0 →
      (pcbcDec ks r ct iv).length = ct.length ∧
      (0 < ct.length → blockAt 0 (pcbcDec ks r ct iv) = xorBytes (decBlock ks r (blockAt 0 ct)) iv) ∧
      ∀ k, 1 ≤ k → k < ct.length / 16 →
        blockAt k (pcbcDec ks r ct iv) =
          xorBytes (xorBytes (decBlock ks r (blockAt k ct)) (blockAt (k - 1) ct))
            (blockAt (k - 1) (pcbcDec ks r ct iv))) ∧
    ∀ pp : List Byte, pp.length % 16 = 0 → pcbcDec ks r (pcbcEnc ks r pp iv) iv = pp

/-- 43_pcbc.md R163: changing one ciphertext block leaves the blocks before it, changes its own, and changes every later
one unless the cancellation of (c) occurs. -/
def Obligations.PcbcErrorPropagation : Prop :=
  ∀ (ks : List Word) (r : Nat) (iv ct ct' : List Byte) (k : Nat), iv.length = 16 → ct.length % 16 = 0 →
    ct'.length = ct.length → k < ct.length / 16 → blockAt k ct' ≠ blockAt k ct →
    (∀ j, j ≠ k → blockAt j ct' = blockAt j ct) →
    (∀ j, j < k → blockAt j (pcbcDec ks r ct' iv) = blockAt j (pcbcDec ks r ct iv)) ∧
    blockAt k (pcbcDec ks r ct' iv) ≠ blockAt k (pcbcDec ks r ct iv) ∧
    ∀ j, k < j → j < ct.length / 16 →
      (blockAt j (pcbcDec ks r ct' iv) = blockAt j (pcbcDec ks r ct iv) ↔
        xorBytes (decBlock ks r (blockAt k ct')) (decBlock ks r (blockAt k ct)) =
          xorBytes (blockAt k ct') (blockAt k ct))

/-- 43_pcbc.md R164. BLOCK_BYTES is 16 where it is not 0 (the invariant's clause `config`). -/
def Obligations.EncryptMsgCommand : Prop :=
  decode 0x00000020#32 = .ok .encryptMsg ∧
  ∀ s : State, s.params.Legal → (s.config.blockBytes = 0 ∨ s.config.blockBytes = 16) →
    (s.CipherConfigured → s.KeyLenLegal → s.ivLen = 16 → s.msgLen.toNat < s.params.bufBytes →
      ∃ t, exec .encryptMsg s = .next t ∧ Completes s t ∧ OnlyCipher s t ∧
        HoldsSubkeys t (expand s.keyBytes s.rounds) ∧
        HoldsOutput t (pcbcEnc (expand s.keyBytes s.rounds) s.rounds (padBytes 16 s.message) s.ivBytes) ∧
        t.outLen.toNat = 16 * (s.msgLen.toNat / 16 + 1) ∧
        RamUnchangedOutside (fun a => inSubkeys (2 * s.rounds + 4) a ∨ inOutput t.outLen.toNat a) s t) ∧
    (¬ s.CipherConfigured → ∃ t, exec .encryptMsg s = .next t ∧ FailsScrubbed s t .configError .notConfigured) ∧
    (s.CipherConfigured → ¬ s.KeyLenLegal → ∃ t, exec .encryptMsg s = .next t ∧ FailsScrubbed s t .argError .keyLen) ∧
    (s.CipherConfigured → s.KeyLenLegal → s.ivLen ≠ 16 →
      ∃ t, exec .encryptMsg s = .next t ∧ FailsScrubbed s t .argError .ivLen) ∧
    (s.CipherConfigured → s.KeyLenLegal → s.ivLen = 16 → s.params.bufBytes ≤ s.msgLen.toNat →
      ∃ t, exec .encryptMsg s = .next t ∧ FailsScrubbed s t .argError .msgLenRange)

/-- 43_pcbc.md R165. BLOCK_BYTES is 16 where it is not 0 (the invariant's clause `config`). A PADDING_ERROR leaves the new
key schedule and a scrubbed output. -/
def Obligations.DecryptMsgCommand : Prop :=
  decode 0x00000021#32 = .ok .decryptMsg ∧
  ∀ s : State, s.params.Legal → (s.config.blockBytes = 0 ∨ s.config.blockBytes = 16) →
    (s.CipherConfigured → s.KeyLenLegal → s.ivLen = 16 → s.msgLen.toNat ≤ s.params.bufBytes → s.msgLen.toNat % 16 = 0 →
      ∃ t, exec .decryptMsg s = .next t ∧ OnlyCipher s t ∧ HoldsSubkeys t (expand s.keyBytes s.rounds) ∧
        match padCount 16 (pcbcDec (expand s.keyBytes s.rounds) s.rounds s.message s.ivBytes) with
        | .ok n => Completes s t ∧
            HoldsOutput t (pcbcDec (expand s.keyBytes s.rounds) s.rounds s.message s.ivBytes) ∧
            n ≤ s.msgLen.toNat ∧ t.outLen.toNat = s.msgLen.toNat - n ∧
            RamUnchangedOutside (fun a => inSubkeys (2 * s.rounds + 4) a ∨ inOutput s.msgLen.toNat a) s t
        | .error d => Raises s t .paddingError d ∧ OutputScrubbed t ∧ d ≠ .padGtLen ∧
            RamUnchangedOutside (fun a => inSubkeys (2 * s.rounds + 4) a ∨ inOutput s.params.bufBytes a) s t) ∧
    (¬ s.CipherConfigured → ∃ t, exec .decryptMsg s = .next t ∧ FailsScrubbed s t .configError .notConfigured) ∧
    (s.CipherConfigured → ¬ s.KeyLenLegal → ∃ t, exec .decryptMsg s = .next t ∧ FailsScrubbed s t .argError .keyLen) ∧
    (s.CipherConfigured → s.KeyLenLegal → s.ivLen ≠ 16 →
      ∃ t, exec .decryptMsg s = .next t ∧ FailsScrubbed s t .argError .ivLen) ∧
    (s.CipherConfigured → s.KeyLenLegal → s.ivLen = 16 → s.params.bufBytes < s.msgLen.toNat →
      ∃ t, exec .decryptMsg s = .next t ∧ FailsScrubbed s t .argError .msgLenRange) ∧
    (s.CipherConfigured → s.KeyLenLegal → s.ivLen = 16 → s.msgLen.toNat ≤ s.params.bufBytes → s.msgLen.toNat % 16 ≠ 0 →
      ∃ t, exec .decryptMsg s = .next t ∧ FailsScrubbed s t .formatError .ctNotBlockMultiple)

/-- 43_pcbc.md R165, corner case round trip: DECRYPT_MSG, in any state with the same configuration, key and IV whose input
is the output of an ENCRYPT_MSG, completes with the original message. -/
def Obligations.MessageRoundTrip : Prop :=
  ∀ s t u : State, s.params.Legal → s.config.rounds ≠ 0 → s.config.blockBytes = 16 → s.KeyLenLegal → s.ivLen = 16 →
    s.msgLen.toNat < s.params.bufBytes → exec .encryptMsg s = .next t →
    u.params = s.params → u.config = s.config → u.key = s.key → u.keyLen = s.keyLen → u.iv = s.iv → u.ivLen = s.ivLen →
    u.msgLen = t.outLen → (∀ o, o < t.outLen.toNat → u.byteAt (inBase + o) = t.byteAt (outBase + o)) →
    ∃ v, exec .decryptMsg u = .next v ∧ Completes u v ∧ v.outLen = s.msgLen ∧
      ∀ o, o < s.msgLen.toNat → v.byteAt (outBase + o) = s.byteAt (inBase + o)

/-! ### PKCS7 -/

/-- 44_pkcs7.md R180, at the one block size. -/
def Obligations.PadAppendsItsCount : Prop :=
  ∀ m : List Byte, ∃ n, 1 ≤ n ∧ n ≤ 16 ∧ n = 16 - m.length % 16 ∧
    padBytes 16 m = m ++ List.replicate n (BitVec.ofNat 8 n) ∧
    (padBytes 16 m).length = 16 * (m.length / 16 + 1)

/-- 44_pkcs7.md R181, at the one block size: when PadCount succeeds and with which count, which error it raises otherwise,
and that Unpad strips that many bytes, and undoes Pad. -/
def Obligations.PadCountChecks : Prop :=
  (∀ (m : List Byte) (n : Nat), padCount 16 m = .ok n ↔
    (1 ≤ n ∧ n ≤ 16 ∧ n ≤ m.length ∧ ∀ i, m.length - n ≤ i → i < m.length → m[i]? = some (BitVec.ofNat 8 n))) ∧
  (∀ m : List Byte, padCount 16 m = .error .padEmpty ↔ m = []) ∧
  (∀ m : List Byte, padCount 16 m = .error .padZero ↔ (m ≠ [] ∧ (m.getLastD 0).toNat = 0)) ∧
  (∀ m : List Byte, padCount 16 m = .error .padGtBlock ↔ (m ≠ [] ∧ 16 < (m.getLastD 0).toNat)) ∧
  (∀ m : List Byte, padCount 16 m = .error .padGtLen ↔
    (m ≠ [] ∧ (m.getLastD 0).toNat ≤ 16 ∧ m.length < (m.getLastD 0).toNat)) ∧
  (∀ m : List Byte, padCount 16 m = .error .padMismatch ↔
    (1 ≤ (m.getLastD 0).toNat ∧ (m.getLastD 0).toNat ≤ 16 ∧ (m.getLastD 0).toNat ≤ m.length ∧
      ∃ i, m.length - (m.getLastD 0).toNat ≤ i ∧ i < m.length ∧ m[i]? ≠ some (m.getLastD 0))) ∧
  (∀ (m : List Byte) (n : Nat), padCount 16 m = .ok n → unpadBytes 16 m = .ok (m.take (m.length - n))) ∧
  (∀ (m : List Byte) (d : DetailCode), padCount 16 m = .error d → unpadBytes 16 m = .error d) ∧
  (∀ m : List Byte, unpadBytes 16 (padBytes 16 m) = .ok m ∧ padCount 16 (padBytes 16 m) = .ok (16 - m.length % 16))

/-- 44_pkcs7.md R182. BLOCK_BYTES is 16 where it is not 0 (the invariant's clause `config`). -/
def Obligations.PadCommand : Prop :=
  decode 0x00000030#32 = .ok .pad ∧
  ∀ s : State, s.params.Legal →
    (s.config.blockBytes = 16 → s.msgLen.toNat < s.params.bufBytes →
      ∃ t, exec .pad s = .next t ∧ Completes s t ∧ OnlyOutput s t ∧ HoldsOutput t (padBytes 16 s.message) ∧
        t.outLen.toNat = 16 * (s.msgLen.toNat / 16 + 1) ∧ RamUnchangedOutside (inOutput t.outLen.toNat) s t) ∧
    (s.config.blockBytes = 0 → ∃ t, exec .pad s = .next t ∧ FailsScrubbed s t .configError .notConfigured) ∧
    (s.config.blockBytes ≠ 0 → s.params.bufBytes ≤ s.msgLen.toNat →
      ∃ t, exec .pad s = .next t ∧ FailsScrubbed s t .argError .msgLenRange)

/-- 44_pkcs7.md R183. BLOCK_BYTES is 16 where it is not 0 (the invariant's clause `config`). -/
def Obligations.UnpadCommand : Prop :=
  decode 0x00000031#32 = .ok .unpad ∧
  ∀ s : State, s.params.Legal →
    (s.config.blockBytes = 16 → s.msgLen.toNat ≤ s.params.bufBytes →
      ∃ t, exec .unpad s = .next t ∧ OnlyOutput s t ∧
        match padCount 16 s.message with
        | .ok n => Completes s t ∧ HoldsOutput t s.message ∧ n ≤ s.msgLen.toNat ∧
            t.outLen.toNat = s.msgLen.toNat - n ∧ RamUnchangedOutside (inOutput s.msgLen.toNat) s t
        | .error d => FailsScrubbed s t .paddingError d) ∧
    (s.config.blockBytes = 0 → ∃ t, exec .unpad s = .next t ∧ FailsScrubbed s t .configError .notConfigured) ∧
    (s.config.blockBytes ≠ 0 → s.params.bufBytes < s.msgLen.toNat →
      ∃ t, exec .unpad s = .next t ∧ FailsScrubbed s t .argError .msgLenRange)

/-! ### Whole-machine rules -/

/-- 60_exceptions.md R225: the six commands that write OUT_BUF scrub it on every error; no other command, and no
illegal word, touches OUT_BUF or OUT_LEN. -/
def Obligations.ScrubOnEveryError : Prop :=
  (∀ (s t : State) (i : Instr), i ∈ [Instr.blockEnc, .blockDec, .encryptMsg, .decryptMsg, .pad, .unpad] →
    exec i s = .next t → t.status.result ≠ .ok → OutputScrubbed t) ∧
  (∀ (s t : State) (i : Instr), i ∉ [Instr.blockEnc, .blockDec, .encryptMsg, .decryptMsg, .pad, .unpad] →
    exec i s = .next t → t.outLen = s.outLen ∧ ∀ a, outBase ≤ a → t.byteAt a = s.byteAt a) ∧
  (∀ (s t : State) (w : Word) (e : DecodeError), decode w = .error e → runCommandWord w s = .next t →
    t.outLen = s.outLen ∧ ∀ a, outBase ≤ a → t.byteAt a = s.byteAt a)

/-- 10_state.md R36 to R38, 43_pcbc.md R162: what the hidden registers hold when a command runs changes nothing it does to
the rest of the state. -/
def Obligations.HiddenRegistersUnobservable : Prop :=
  ∀ (i : Instr) (s : State) (w : Work) (c : Scratch) (h : Chain) (n : Nat),
    ∃ t t', exec i s = .next t ∧ exec i { s with work := w, scratch := c, chain := h, blockIndex := n } = .next t' ∧
      t' = { t with work := t'.work, scratch := t'.scratch, chain := t'.chain, blockIndex := t'.blockIndex }

/-- 10_state.md R21: only SET_ROUNDS and SET_BLOCK, and reset, change CONFIG. -/
def Obligations.OnlySettersChangeConfig : Prop :=
  ∀ s t : State, step s = .next t → t.config ≠ s.config →
    s.pinsNow.rstN = false ∨ ∃ w imm, s.seq = .running w 0 ∧
      (decode w = .ok (.setRounds imm) ∨ decode w = .ok (.setBlock imm))

/-- 10_state.md R31, R33: only a command that runs the key schedule, and reset, change SUBKEY_COUNT or a byte of the
subkey RAM; no host write reaches it. -/
def Obligations.OnlyKeyScheduleChangesSubkeys : Prop :=
  ∀ s t : State, step s = .next t →
    (t.subkeyCount ≠ s.subkeyCount ∨ ∃ a, inSubkeys Config.tMax a ∧ t.byteAt a ≠ s.byteAt a) →
    s.pinsNow.rstN = false ∨ ∃ w i, s.seq = .running w 0 ∧ decode w = .ok i ∧
      i ∈ [Instr.expandKey, .blockEnc, .blockDec, .encryptMsg, .decryptMsg]

/-- 10_state.md R34, 20_memory.md R61: the engine never writes IN_BUF: only a host write that completes while IDLE, and
reset, change a byte of it. IDLE is the state before the edge (log entry 15, DEDUCED). -/
def Obligations.OnlyHostChangesInBuf : Prop :=
  ∀ (s t : State) (o : Nat), s.params.Legal → step s = .next t → o < s.params.bufBytes →
    t.byteAt (inBase + o) ≠ s.byteAt (inBase + o) →
    s.pinsNow.rstN = false ∨ ∃ q, s.pending = some q ∧ q.we = true ∧ s.busy = false ∧
      q.addr.toNat = inBase + (o - o % 4)

/-- 10_state.md R30, R35: only a command that writes OUT_BUF, and reset, change OUT_LEN or a byte of OUT_BUF; no host write
reaches it. -/
def Obligations.OnlyCommandsChangeOutBuf : Prop :=
  ∀ s t : State, s.params.Legal → step s = .next t →
    (t.outLen ≠ s.outLen ∨ ∃ a, inOutput s.params.bufBytes a ∧ t.byteAt a ≠ s.byteAt a) →
    s.pinsNow.rstN = false ∨ ∃ w i, s.seq = .running w 0 ∧ decode w = .ok i ∧
      i ∈ [Instr.blockEnc, .blockDec, .encryptMsg, .decryptMsg, .pad, .unpad]

/-- 10_state.md R22, 60_exceptions.md R227: STICKY_ERR and WR_IGNORED stay set until CLEAR_STATUS or reset. -/
def Obligations.StickyBitsStay : Prop :=
  ∀ s t : State, step s = .next t →
    ((s.status.stickyErr = true ∧ t.status.stickyErr = false) ∨
     (s.status.wrIgnored = true ∧ t.status.wrIgnored = false)) →
    s.pinsNow.rstN = false ∨ ∃ w, s.seq = .running w 0 ∧ decode w = .ok .clearStatus

/-- 10_state.md R25, R27, R29, 70_reset_and_hazards.md R253: no command changes a key, IV or length register or the
parameters; they keep their values across commands. -/
def Obligations.CommandsKeepHostRegisters : Prop :=
  ∀ (i : Instr) (s t : State), exec i s = .next t →
    t.params = s.params ∧ t.key = s.key ∧ t.keyLen = s.keyLen ∧ t.iv = s.iv ∧ t.ivLen = s.ivLen ∧
    t.msgLen = s.msgLen ∧ t.status.lastOp = s.status.lastOp ∧ t.seq = .idle ∧
    ∀ a, inBase ≤ a → a < outBase → t.byteAt a = s.byteAt a

/-! ### What the block transform computes, the address map, and the end of a command -/

/-- 42_block_transform.md R140, R141, 40_primitives.md R105: Enc(S, r, blk), as the values of A, B, C, D after each round. -/
def Obligations.EncBlockRounds : Prop :=
  ∀ (ks : List Word) (r : Nat) (blk : List Byte), blk.length = 16 →
    ∃ a b c d : Nat → Word,
      leWords blk = [a 0, b 0 - ks.getD 0 0, c 0, d 0 - ks.getD 1 0] ∧
      (∀ i, 1 ≤ i → i ≤ r → ∃ t u : Word,
        t = (b (i - 1) * (2 * b (i - 1) + 1)).rotateLeft 5 ∧ u = (d (i - 1) * (2 * d (i - 1) + 1)).rotateLeft 5 ∧
        a i = b (i - 1) ∧
        b i = (c (i - 1) ^^^ u).rotateLeft (t.toNat % 32) + ks.getD (2 * i + 1) 0 ∧
        c i = d (i - 1) ∧
        d i = (a (i - 1) ^^^ t).rotateLeft (u.toNat % 32) + ks.getD (2 * i) 0) ∧
      (encBlock ks r blk).length = 16 ∧
      leWords (encBlock ks r blk) = [a r + ks.getD (2 * r + 2) 0, b r, c r + ks.getD (2 * r + 3) 0, d r]

/-- 42_block_transform.md R140, R142, 40_primitives.md R105: Dec(S, r, blk), as the values of A, B, C, D before each round,
the rounds running from r down to 1; `a 0`, `b 0`, `c 0`, `d 0` are those after the last round. -/
def Obligations.DecBlockRounds : Prop :=
  ∀ (ks : List Word) (r : Nat) (blk : List Byte), blk.length = 16 →
    ∃ a b c d : Nat → Word,
      leWords blk = [a r + ks.getD (2 * r + 2) 0, b r, c r + ks.getD (2 * r + 3) 0, d r] ∧
      (∀ i, 1 ≤ i → i ≤ r → ∃ t u : Word,
        t = (a i * (2 * a i + 1)).rotateLeft 5 ∧ u = (c i * (2 * c i + 1)).rotateLeft 5 ∧
        a (i - 1) = (d i - ks.getD (2 * i) 0).rotateRight (u.toNat % 32) ^^^ t ∧
        b (i - 1) = a i ∧
        c (i - 1) = (b i - ks.getD (2 * i + 1) 0).rotateRight (t.toNat % 32) ^^^ u ∧
        d (i - 1) = c i) ∧
      (decBlock ks r blk).length = 16 ∧
      leWords (decBlock ks r blk) = [a 0, b 0 - ks.getD 0 0, c 0, d 0 - ks.getD 1 0]

/-- 20_memory.md R51, R53, R56: which register or RAM word each address names, for a read and, where the host may write it,
for a write, while IDLE. (A write of CMD is AcceptanceWrites.) -/
def Obligations.AddressMap : Prop :=
  ∀ (s : State) (x : Word), s.params.Legal → s.busy = false →
    (∀ a v, (a, v) ∈ [(0x0000#16, 0#32), (0x0004, s.statusWord), (0x0008, s.configWord), (0x000C, s.keyLen),
        (0x0010, s.ivLen), (0x0014, s.msgLen), (0x0018, s.outLen), (0x001C, s.subkeyCount)] →
      s.hostAccess { we := false, addr := a, wdata := x } = { s with response := .read v }) ∧
    (∀ n : Fin 8, s.hostAccess { we := false, addr := BitVec.ofNat 16 (0x0020 + 4 * n), wdata := x } =
      { s with response := .read s.key[n] }) ∧
    (∀ n : Fin 4, s.hostAccess { we := false, addr := BitVec.ofNat 16 (0x0040 + 4 * n), wdata := x } =
      { s with response := .read s.iv[n] }) ∧
    (∀ k, k < 514 → s.hostAccess { we := false, addr := BitVec.ofNat 16 (0x1000 + 4 * k), wdata := x } =
      { s with response := .read (s.wordAt (sBase + 4 * k)) }) ∧
    (∀ q, 4 * q < s.params.bufBytes →
      s.hostAccess { we := false, addr := BitVec.ofNat 16 (0x4000 + 4 * q), wdata := x } =
        { s with response := .read (s.wordAt (inBase + 4 * q)) } ∧
      s.hostAccess { we := false, addr := BitVec.ofNat 16 (0x8000 + 4 * q), wdata := x } =
        { s with response := .read (s.wordAt (outBase + 4 * q)) }) ∧
    s.hostAccess { we := true, addr := 0x000C, wdata := x } = { s with keyLen := x, response := .written } ∧
    s.hostAccess { we := true, addr := 0x0010, wdata := x } = { s with ivLen := x, response := .written } ∧
    s.hostAccess { we := true, addr := 0x0014, wdata := x } = { s with msgLen := x, response := .written } ∧
    (∀ n : Fin 8, s.hostAccess { we := true, addr := BitVec.ofNat 16 (0x0020 + 4 * n), wdata := x } =
      { s with key := s.key.set n x, response := .written }) ∧
    ∀ n : Fin 4, s.hostAccess { we := true, addr := BitVec.ofNat 16 (0x0040 + 4 * n), wdata := x } =
      { s with iv := s.iv.set n x, response := .written }

/-- 70_reset_and_hazards.md R256, R259, R260, 30_encoding.md R78: from an idle engine, in a run whose commands have all
ended, a write of any word to CMD makes the run not over, and no reads but of STATUS make it over; the `wait` after the
write ends the command and so the run, its last read returning the STATUS of the command's completion state; the engine is
then in that state, but for the bus and the model's own fields. Which CMD writes R259 speaks of is log entry 22. -/
def Obligations.CommandEndsUnderWait : Prop :=
  ∀ (r : Run) (w : Word), 1 ≤ r.state.params.latency → r.state.busy = false → r.state.pending = none →
    r.isOver = true →
    (∀ as : List (BitVec 16), 0x0004 ∉ as →
      ∃ m, r.program (.stmt (.wr 0x0000 w) :: as.map fun a => .stmt (.rd a)) = .next m ∧ m.isOver = false) ∧
    ∃ u t vs, runCommandWord w (r.state.accept w) = .next u ∧
      r.program [.stmt (.wr 0x0000 w), .wait] = .next t ∧ t.isOver = true ∧
      t.issued = { op := w.extractLsb' 0 8, ended := true } :: r.issued ∧
      t.observed = r.observed ++ vs ++ [u.statusWord] ∧
      t.state = { u with pending := none, response := .read u.statusWord, inputs := [], draws := t.state.draws }
end

