-- ==== Sys2Proof/Laws/State.lean ====
section
/-! SUPPORT. What each named update of the state does to each field: one lemma per field per update, true by
unfolding, so that no later proof unfolds a record update. -/

namespace Sys2Proof.Machine

/-! ### completeOk -/

@[simp] theorem State.completeOk_params (s : State) : s.completeOk.params = s.params := rfl
@[simp] theorem State.completeOk_config (s : State) : s.completeOk.config = s.config := rfl
@[simp] theorem State.completeOk_status (s : State) : s.completeOk.status = { s.status with result := .ok, detail := .none } := rfl
@[simp] theorem State.completeOk_key (s : State) : s.completeOk.key = s.key := rfl
@[simp] theorem State.completeOk_keyLen (s : State) : s.completeOk.keyLen = s.keyLen := rfl
@[simp] theorem State.completeOk_iv (s : State) : s.completeOk.iv = s.iv := rfl
@[simp] theorem State.completeOk_ivLen (s : State) : s.completeOk.ivLen = s.ivLen := rfl
@[simp] theorem State.completeOk_msgLen (s : State) : s.completeOk.msgLen = s.msgLen := rfl
@[simp] theorem State.completeOk_outLen (s : State) : s.completeOk.outLen = s.outLen := rfl
@[simp] theorem State.completeOk_subkeyCount (s : State) : s.completeOk.subkeyCount = s.subkeyCount := rfl
@[simp] theorem State.completeOk_mem (s : State) : s.completeOk.mem = s.mem := rfl
@[simp] theorem State.completeOk_work (s : State) : s.completeOk.work = s.work := rfl
@[simp] theorem State.completeOk_scratch (s : State) : s.completeOk.scratch = s.scratch := rfl
@[simp] theorem State.completeOk_chain (s : State) : s.completeOk.chain = s.chain := rfl
@[simp] theorem State.completeOk_seq (s : State) : s.completeOk.seq = .idle := rfl
@[simp] theorem State.completeOk_blockIndex (s : State) : s.completeOk.blockIndex = s.blockIndex := rfl
@[simp] theorem State.completeOk_pending (s : State) : s.completeOk.pending = s.pending := rfl
@[simp] theorem State.completeOk_response (s : State) : s.completeOk.response = s.response := rfl
@[simp] theorem State.completeOk_inputs (s : State) : s.completeOk.inputs = s.inputs := rfl
@[simp] theorem State.completeOk_draws (s : State) : s.completeOk.draws = s.draws := rfl
@[simp] theorem State.completeOk_resets (s : State) : s.completeOk.resets = s.resets := rfl

/-! ### raise -/

@[simp] theorem State.raise_params (s : State) (d : DetailCode) : (s.raise d).params = s.params := rfl
@[simp] theorem State.raise_config (s : State) (d : DetailCode) : (s.raise d).config = s.config := rfl
@[simp] theorem State.raise_status (s : State) (d : DetailCode) : (s.raise d).status = { s.status with result := d.result, detail := d, stickyErr := true } := rfl
@[simp] theorem State.raise_key (s : State) (d : DetailCode) : (s.raise d).key = s.key := rfl
@[simp] theorem State.raise_keyLen (s : State) (d : DetailCode) : (s.raise d).keyLen = s.keyLen := rfl
@[simp] theorem State.raise_iv (s : State) (d : DetailCode) : (s.raise d).iv = s.iv := rfl
@[simp] theorem State.raise_ivLen (s : State) (d : DetailCode) : (s.raise d).ivLen = s.ivLen := rfl
@[simp] theorem State.raise_msgLen (s : State) (d : DetailCode) : (s.raise d).msgLen = s.msgLen := rfl
@[simp] theorem State.raise_outLen (s : State) (d : DetailCode) : (s.raise d).outLen = s.outLen := rfl
@[simp] theorem State.raise_subkeyCount (s : State) (d : DetailCode) : (s.raise d).subkeyCount = s.subkeyCount := rfl
@[simp] theorem State.raise_mem (s : State) (d : DetailCode) : (s.raise d).mem = s.mem := rfl
@[simp] theorem State.raise_work (s : State) (d : DetailCode) : (s.raise d).work = s.work := rfl
@[simp] theorem State.raise_scratch (s : State) (d : DetailCode) : (s.raise d).scratch = s.scratch := rfl
@[simp] theorem State.raise_chain (s : State) (d : DetailCode) : (s.raise d).chain = s.chain := rfl
@[simp] theorem State.raise_seq (s : State) (d : DetailCode) : (s.raise d).seq = .idle := rfl
@[simp] theorem State.raise_blockIndex (s : State) (d : DetailCode) : (s.raise d).blockIndex = s.blockIndex := rfl
@[simp] theorem State.raise_pending (s : State) (d : DetailCode) : (s.raise d).pending = s.pending := rfl
@[simp] theorem State.raise_response (s : State) (d : DetailCode) : (s.raise d).response = s.response := rfl
@[simp] theorem State.raise_inputs (s : State) (d : DetailCode) : (s.raise d).inputs = s.inputs := rfl
@[simp] theorem State.raise_draws (s : State) (d : DetailCode) : (s.raise d).draws = s.draws := rfl
@[simp] theorem State.raise_resets (s : State) (d : DetailCode) : (s.raise d).resets = s.resets := rfl

/-! ### store -/

@[simp] theorem State.store_params (s : State) (a : Nat) (bs : List Byte) : (s.store a bs).params = s.params := rfl
@[simp] theorem State.store_config (s : State) (a : Nat) (bs : List Byte) : (s.store a bs).config = s.config := rfl
@[simp] theorem State.store_status (s : State) (a : Nat) (bs : List Byte) : (s.store a bs).status = s.status := rfl
@[simp] theorem State.store_key (s : State) (a : Nat) (bs : List Byte) : (s.store a bs).key = s.key := rfl
@[simp] theorem State.store_keyLen (s : State) (a : Nat) (bs : List Byte) : (s.store a bs).keyLen = s.keyLen := rfl
@[simp] theorem State.store_iv (s : State) (a : Nat) (bs : List Byte) : (s.store a bs).iv = s.iv := rfl
@[simp] theorem State.store_ivLen (s : State) (a : Nat) (bs : List Byte) : (s.store a bs).ivLen = s.ivLen := rfl
@[simp] theorem State.store_msgLen (s : State) (a : Nat) (bs : List Byte) : (s.store a bs).msgLen = s.msgLen := rfl
@[simp] theorem State.store_outLen (s : State) (a : Nat) (bs : List Byte) : (s.store a bs).outLen = s.outLen := rfl
@[simp] theorem State.store_subkeyCount (s : State) (a : Nat) (bs : List Byte) : (s.store a bs).subkeyCount = s.subkeyCount := rfl
@[simp] theorem State.store_mem (s : State) (a : Nat) (bs : List Byte) : (s.store a bs).mem = s.mem.write a bs := rfl
@[simp] theorem State.store_work (s : State) (a : Nat) (bs : List Byte) : (s.store a bs).work = s.work := rfl
@[simp] theorem State.store_scratch (s : State) (a : Nat) (bs : List Byte) : (s.store a bs).scratch = s.scratch := rfl
@[simp] theorem State.store_chain (s : State) (a : Nat) (bs : List Byte) : (s.store a bs).chain = s.chain := rfl
@[simp] theorem State.store_seq (s : State) (a : Nat) (bs : List Byte) : (s.store a bs).seq = s.seq := rfl
@[simp] theorem State.store_blockIndex (s : State) (a : Nat) (bs : List Byte) : (s.store a bs).blockIndex = s.blockIndex := rfl
@[simp] theorem State.store_pending (s : State) (a : Nat) (bs : List Byte) : (s.store a bs).pending = s.pending := rfl
@[simp] theorem State.store_response (s : State) (a : Nat) (bs : List Byte) : (s.store a bs).response = s.response := rfl
@[simp] theorem State.store_inputs (s : State) (a : Nat) (bs : List Byte) : (s.store a bs).inputs = s.inputs := rfl
@[simp] theorem State.store_draws (s : State) (a : Nat) (bs : List Byte) : (s.store a bs).draws = s.draws := rfl
@[simp] theorem State.store_resets (s : State) (a : Nat) (bs : List Byte) : (s.store a bs).resets = s.resets := rfl

/-! ### putOut -/

@[simp] theorem State.putOut_params (s : State) (bs : List Byte) (n : Nat) : (s.putOut bs n).params = s.params := rfl
@[simp] theorem State.putOut_config (s : State) (bs : List Byte) (n : Nat) : (s.putOut bs n).config = s.config := rfl
@[simp] theorem State.putOut_status (s : State) (bs : List Byte) (n : Nat) : (s.putOut bs n).status = s.status := rfl
@[simp] theorem State.putOut_key (s : State) (bs : List Byte) (n : Nat) : (s.putOut bs n).key = s.key := rfl
@[simp] theorem State.putOut_keyLen (s : State) (bs : List Byte) (n : Nat) : (s.putOut bs n).keyLen = s.keyLen := rfl
@[simp] theorem State.putOut_iv (s : State) (bs : List Byte) (n : Nat) : (s.putOut bs n).iv = s.iv := rfl
@[simp] theorem State.putOut_ivLen (s : State) (bs : List Byte) (n : Nat) : (s.putOut bs n).ivLen = s.ivLen := rfl
@[simp] theorem State.putOut_msgLen (s : State) (bs : List Byte) (n : Nat) : (s.putOut bs n).msgLen = s.msgLen := rfl
@[simp] theorem State.putOut_outLen (s : State) (bs : List Byte) (n : Nat) : (s.putOut bs n).outLen = BitVec.ofNat 32 n := rfl
@[simp] theorem State.putOut_subkeyCount (s : State) (bs : List Byte) (n : Nat) : (s.putOut bs n).subkeyCount = s.subkeyCount := rfl
@[simp] theorem State.putOut_mem (s : State) (bs : List Byte) (n : Nat) : (s.putOut bs n).mem = s.mem.write outBase bs := rfl
@[simp] theorem State.putOut_work (s : State) (bs : List Byte) (n : Nat) : (s.putOut bs n).work = s.work := rfl
@[simp] theorem State.putOut_scratch (s : State) (bs : List Byte) (n : Nat) : (s.putOut bs n).scratch = s.scratch := rfl
@[simp] theorem State.putOut_chain (s : State) (bs : List Byte) (n : Nat) : (s.putOut bs n).chain = s.chain := rfl
@[simp] theorem State.putOut_seq (s : State) (bs : List Byte) (n : Nat) : (s.putOut bs n).seq = s.seq := rfl
@[simp] theorem State.putOut_blockIndex (s : State) (bs : List Byte) (n : Nat) : (s.putOut bs n).blockIndex = s.blockIndex := rfl
@[simp] theorem State.putOut_pending (s : State) (bs : List Byte) (n : Nat) : (s.putOut bs n).pending = s.pending := rfl
@[simp] theorem State.putOut_response (s : State) (bs : List Byte) (n : Nat) : (s.putOut bs n).response = s.response := rfl
@[simp] theorem State.putOut_inputs (s : State) (bs : List Byte) (n : Nat) : (s.putOut bs n).inputs = s.inputs := rfl
@[simp] theorem State.putOut_draws (s : State) (bs : List Byte) (n : Nat) : (s.putOut bs n).draws = s.draws := rfl
@[simp] theorem State.putOut_resets (s : State) (bs : List Byte) (n : Nat) : (s.putOut bs n).resets = s.resets := rfl

/-! ### scrubOut -/

@[simp] theorem State.scrubOut_params (s : State) : s.scrubOut.params = s.params := rfl
@[simp] theorem State.scrubOut_config (s : State) : s.scrubOut.config = s.config := rfl
@[simp] theorem State.scrubOut_status (s : State) : s.scrubOut.status = s.status := rfl
@[simp] theorem State.scrubOut_key (s : State) : s.scrubOut.key = s.key := rfl
@[simp] theorem State.scrubOut_keyLen (s : State) : s.scrubOut.keyLen = s.keyLen := rfl
@[simp] theorem State.scrubOut_iv (s : State) : s.scrubOut.iv = s.iv := rfl
@[simp] theorem State.scrubOut_ivLen (s : State) : s.scrubOut.ivLen = s.ivLen := rfl
@[simp] theorem State.scrubOut_msgLen (s : State) : s.scrubOut.msgLen = s.msgLen := rfl
@[simp] theorem State.scrubOut_outLen (s : State) : s.scrubOut.outLen = 0 := rfl
@[simp] theorem State.scrubOut_subkeyCount (s : State) : s.scrubOut.subkeyCount = s.subkeyCount := rfl
@[simp] theorem State.scrubOut_mem (s : State) : s.scrubOut.mem = s.mem.write outBase (List.replicate s.params.bufBytes 0) := rfl
@[simp] theorem State.scrubOut_work (s : State) : s.scrubOut.work = s.work := rfl
@[simp] theorem State.scrubOut_scratch (s : State) : s.scrubOut.scratch = s.scratch := rfl
@[simp] theorem State.scrubOut_chain (s : State) : s.scrubOut.chain = s.chain := rfl
@[simp] theorem State.scrubOut_seq (s : State) : s.scrubOut.seq = s.seq := rfl
@[simp] theorem State.scrubOut_blockIndex (s : State) : s.scrubOut.blockIndex = s.blockIndex := rfl
@[simp] theorem State.scrubOut_pending (s : State) : s.scrubOut.pending = s.pending := rfl
@[simp] theorem State.scrubOut_response (s : State) : s.scrubOut.response = s.response := rfl
@[simp] theorem State.scrubOut_inputs (s : State) : s.scrubOut.inputs = s.inputs := rfl
@[simp] theorem State.scrubOut_draws (s : State) : s.scrubOut.draws = s.draws := rfl
@[simp] theorem State.scrubOut_resets (s : State) : s.scrubOut.resets = s.resets := rfl

/-! ### raiseScrub -/

@[simp] theorem State.raiseScrub_params (s : State) (d : DetailCode) : (s.raiseScrub d).params = s.params := rfl
@[simp] theorem State.raiseScrub_config (s : State) (d : DetailCode) : (s.raiseScrub d).config = s.config := rfl
@[simp] theorem State.raiseScrub_status (s : State) (d : DetailCode) : (s.raiseScrub d).status = { s.status with result := d.result, detail := d, stickyErr := true } := rfl
@[simp] theorem State.raiseScrub_key (s : State) (d : DetailCode) : (s.raiseScrub d).key = s.key := rfl
@[simp] theorem State.raiseScrub_keyLen (s : State) (d : DetailCode) : (s.raiseScrub d).keyLen = s.keyLen := rfl
@[simp] theorem State.raiseScrub_iv (s : State) (d : DetailCode) : (s.raiseScrub d).iv = s.iv := rfl
@[simp] theorem State.raiseScrub_ivLen (s : State) (d : DetailCode) : (s.raiseScrub d).ivLen = s.ivLen := rfl
@[simp] theorem State.raiseScrub_msgLen (s : State) (d : DetailCode) : (s.raiseScrub d).msgLen = s.msgLen := rfl
@[simp] theorem State.raiseScrub_outLen (s : State) (d : DetailCode) : (s.raiseScrub d).outLen = 0 := rfl
@[simp] theorem State.raiseScrub_subkeyCount (s : State) (d : DetailCode) : (s.raiseScrub d).subkeyCount = s.subkeyCount := rfl
@[simp] theorem State.raiseScrub_mem (s : State) (d : DetailCode) : (s.raiseScrub d).mem = s.mem.write outBase (List.replicate s.params.bufBytes 0) := rfl
@[simp] theorem State.raiseScrub_work (s : State) (d : DetailCode) : (s.raiseScrub d).work = s.work := rfl
@[simp] theorem State.raiseScrub_scratch (s : State) (d : DetailCode) : (s.raiseScrub d).scratch = s.scratch := rfl
@[simp] theorem State.raiseScrub_chain (s : State) (d : DetailCode) : (s.raiseScrub d).chain = s.chain := rfl
@[simp] theorem State.raiseScrub_seq (s : State) (d : DetailCode) : (s.raiseScrub d).seq = .idle := rfl
@[simp] theorem State.raiseScrub_blockIndex (s : State) (d : DetailCode) : (s.raiseScrub d).blockIndex = s.blockIndex := rfl
@[simp] theorem State.raiseScrub_pending (s : State) (d : DetailCode) : (s.raiseScrub d).pending = s.pending := rfl
@[simp] theorem State.raiseScrub_response (s : State) (d : DetailCode) : (s.raiseScrub d).response = s.response := rfl
@[simp] theorem State.raiseScrub_inputs (s : State) (d : DetailCode) : (s.raiseScrub d).inputs = s.inputs := rfl
@[simp] theorem State.raiseScrub_draws (s : State) (d : DetailCode) : (s.raiseScrub d).draws = s.draws := rfl
@[simp] theorem State.raiseScrub_resets (s : State) (d : DetailCode) : (s.raiseScrub d).resets = s.resets := rfl

/-! ### putSubkeys -/

@[simp] theorem State.putSubkeys_params (s : State) (ws : List Word) : (s.putSubkeys ws).params = s.params := rfl
@[simp] theorem State.putSubkeys_config (s : State) (ws : List Word) : (s.putSubkeys ws).config = s.config := rfl
@[simp] theorem State.putSubkeys_status (s : State) (ws : List Word) : (s.putSubkeys ws).status = s.status := rfl
@[simp] theorem State.putSubkeys_key (s : State) (ws : List Word) : (s.putSubkeys ws).key = s.key := rfl
@[simp] theorem State.putSubkeys_keyLen (s : State) (ws : List Word) : (s.putSubkeys ws).keyLen = s.keyLen := rfl
@[simp] theorem State.putSubkeys_iv (s : State) (ws : List Word) : (s.putSubkeys ws).iv = s.iv := rfl
@[simp] theorem State.putSubkeys_ivLen (s : State) (ws : List Word) : (s.putSubkeys ws).ivLen = s.ivLen := rfl
@[simp] theorem State.putSubkeys_msgLen (s : State) (ws : List Word) : (s.putSubkeys ws).msgLen = s.msgLen := rfl
@[simp] theorem State.putSubkeys_outLen (s : State) (ws : List Word) : (s.putSubkeys ws).outLen = s.outLen := rfl
@[simp] theorem State.putSubkeys_subkeyCount (s : State) (ws : List Word) : (s.putSubkeys ws).subkeyCount = BitVec.ofNat 32 ws.length := rfl
@[simp] theorem State.putSubkeys_mem (s : State) (ws : List Word) : (s.putSubkeys ws).mem = s.mem.write sBase (leBytes ws) := rfl
@[simp] theorem State.putSubkeys_work (s : State) (ws : List Word) : (s.putSubkeys ws).work = s.work := rfl
@[simp] theorem State.putSubkeys_scratch (s : State) (ws : List Word) : (s.putSubkeys ws).scratch = s.scratch := rfl
@[simp] theorem State.putSubkeys_chain (s : State) (ws : List Word) : (s.putSubkeys ws).chain = s.chain := rfl
@[simp] theorem State.putSubkeys_seq (s : State) (ws : List Word) : (s.putSubkeys ws).seq = s.seq := rfl
@[simp] theorem State.putSubkeys_blockIndex (s : State) (ws : List Word) : (s.putSubkeys ws).blockIndex = s.blockIndex := rfl
@[simp] theorem State.putSubkeys_pending (s : State) (ws : List Word) : (s.putSubkeys ws).pending = s.pending := rfl
@[simp] theorem State.putSubkeys_response (s : State) (ws : List Word) : (s.putSubkeys ws).response = s.response := rfl
@[simp] theorem State.putSubkeys_inputs (s : State) (ws : List Word) : (s.putSubkeys ws).inputs = s.inputs := rfl
@[simp] theorem State.putSubkeys_draws (s : State) (ws : List Word) : (s.putSubkeys ws).draws = s.draws := rfl
@[simp] theorem State.putSubkeys_resets (s : State) (ws : List Word) : (s.putSubkeys ws).resets = s.resets := rfl

/-! ### putScratch -/

@[simp] theorem State.putScratch_params (s : State) (m : Mixing) : (s.putScratch m).params = s.params := rfl
@[simp] theorem State.putScratch_config (s : State) (m : Mixing) : (s.putScratch m).config = s.config := rfl
@[simp] theorem State.putScratch_status (s : State) (m : Mixing) : (s.putScratch m).status = s.status := rfl
@[simp] theorem State.putScratch_key (s : State) (m : Mixing) : (s.putScratch m).key = s.key := rfl
@[simp] theorem State.putScratch_keyLen (s : State) (m : Mixing) : (s.putScratch m).keyLen = s.keyLen := rfl
@[simp] theorem State.putScratch_iv (s : State) (m : Mixing) : (s.putScratch m).iv = s.iv := rfl
@[simp] theorem State.putScratch_ivLen (s : State) (m : Mixing) : (s.putScratch m).ivLen = s.ivLen := rfl
@[simp] theorem State.putScratch_msgLen (s : State) (m : Mixing) : (s.putScratch m).msgLen = s.msgLen := rfl
@[simp] theorem State.putScratch_outLen (s : State) (m : Mixing) : (s.putScratch m).outLen = s.outLen := rfl
@[simp] theorem State.putScratch_subkeyCount (s : State) (m : Mixing) : (s.putScratch m).subkeyCount = s.subkeyCount := rfl
@[simp] theorem State.putScratch_mem (s : State) (m : Mixing) : (s.putScratch m).mem = s.mem := rfl
@[simp] theorem State.putScratch_work (s : State) (m : Mixing) : (s.putScratch m).work = s.work := rfl
@[simp] theorem State.putScratch_chain (s : State) (m : Mixing) : (s.putScratch m).chain = s.chain := rfl
@[simp] theorem State.putScratch_seq (s : State) (m : Mixing) : (s.putScratch m).seq = s.seq := rfl
@[simp] theorem State.putScratch_blockIndex (s : State) (m : Mixing) : (s.putScratch m).blockIndex = s.blockIndex := rfl
@[simp] theorem State.putScratch_pending (s : State) (m : Mixing) : (s.putScratch m).pending = s.pending := rfl
@[simp] theorem State.putScratch_response (s : State) (m : Mixing) : (s.putScratch m).response = s.response := rfl
@[simp] theorem State.putScratch_inputs (s : State) (m : Mixing) : (s.putScratch m).inputs = s.inputs := rfl
@[simp] theorem State.putScratch_draws (s : State) (m : Mixing) : (s.putScratch m).draws = s.draws := rfl
@[simp] theorem State.putScratch_resets (s : State) (m : Mixing) : (s.putScratch m).resets = s.resets := rfl

/-! ### runKeySchedule -/

@[simp] theorem State.runKeySchedule_params (s : State) : s.runKeySchedule.params = s.params := rfl
@[simp] theorem State.runKeySchedule_config (s : State) : s.runKeySchedule.config = s.config := rfl
@[simp] theorem State.runKeySchedule_status (s : State) : s.runKeySchedule.status = s.status := rfl
@[simp] theorem State.runKeySchedule_key (s : State) : s.runKeySchedule.key = s.key := rfl
@[simp] theorem State.runKeySchedule_keyLen (s : State) : s.runKeySchedule.keyLen = s.keyLen := rfl
@[simp] theorem State.runKeySchedule_iv (s : State) : s.runKeySchedule.iv = s.iv := rfl
@[simp] theorem State.runKeySchedule_ivLen (s : State) : s.runKeySchedule.ivLen = s.ivLen := rfl
@[simp] theorem State.runKeySchedule_msgLen (s : State) : s.runKeySchedule.msgLen = s.msgLen := rfl
@[simp] theorem State.runKeySchedule_outLen (s : State) : s.runKeySchedule.outLen = s.outLen := rfl
@[simp] theorem State.runKeySchedule_subkeyCount (s : State) : s.runKeySchedule.subkeyCount = BitVec.ofNat 32 s.subkeys.length := rfl
@[simp] theorem State.runKeySchedule_mem (s : State) : s.runKeySchedule.mem = s.mem.write sBase (leBytes s.subkeys) := rfl
@[simp] theorem State.runKeySchedule_work (s : State) : s.runKeySchedule.work = s.work := rfl
@[simp] theorem State.runKeySchedule_chain (s : State) : s.runKeySchedule.chain = s.chain := rfl
@[simp] theorem State.runKeySchedule_seq (s : State) : s.runKeySchedule.seq = s.seq := rfl
@[simp] theorem State.runKeySchedule_blockIndex (s : State) : s.runKeySchedule.blockIndex = s.blockIndex := rfl
@[simp] theorem State.runKeySchedule_pending (s : State) : s.runKeySchedule.pending = s.pending := rfl
@[simp] theorem State.runKeySchedule_response (s : State) : s.runKeySchedule.response = s.response := rfl
@[simp] theorem State.runKeySchedule_inputs (s : State) : s.runKeySchedule.inputs = s.inputs := rfl
@[simp] theorem State.runKeySchedule_draws (s : State) : s.runKeySchedule.draws = s.draws := rfl
@[simp] theorem State.runKeySchedule_resets (s : State) : s.runKeySchedule.resets = s.resets := rfl

/-! ### putWork -/

@[simp] theorem State.putWork_params (s : State) (w : Work) : (s.putWork w).params = s.params := rfl
@[simp] theorem State.putWork_config (s : State) (w : Work) : (s.putWork w).config = s.config := rfl
@[simp] theorem State.putWork_status (s : State) (w : Work) : (s.putWork w).status = s.status := rfl
@[simp] theorem State.putWork_key (s : State) (w : Work) : (s.putWork w).key = s.key := rfl
@[simp] theorem State.putWork_keyLen (s : State) (w : Work) : (s.putWork w).keyLen = s.keyLen := rfl
@[simp] theorem State.putWork_iv (s : State) (w : Work) : (s.putWork w).iv = s.iv := rfl
@[simp] theorem State.putWork_ivLen (s : State) (w : Work) : (s.putWork w).ivLen = s.ivLen := rfl
@[simp] theorem State.putWork_msgLen (s : State) (w : Work) : (s.putWork w).msgLen = s.msgLen := rfl
@[simp] theorem State.putWork_outLen (s : State) (w : Work) : (s.putWork w).outLen = s.outLen := rfl
@[simp] theorem State.putWork_subkeyCount (s : State) (w : Work) : (s.putWork w).subkeyCount = s.subkeyCount := rfl
@[simp] theorem State.putWork_mem (s : State) (w : Work) : (s.putWork w).mem = s.mem := rfl
@[simp] theorem State.putWork_work (s : State) (w : Work) : (s.putWork w).work = w := rfl
@[simp] theorem State.putWork_scratch (s : State) (w : Work) : (s.putWork w).scratch = s.scratch := rfl
@[simp] theorem State.putWork_chain (s : State) (w : Work) : (s.putWork w).chain = s.chain := rfl
@[simp] theorem State.putWork_seq (s : State) (w : Work) : (s.putWork w).seq = s.seq := rfl
@[simp] theorem State.putWork_blockIndex (s : State) (w : Work) : (s.putWork w).blockIndex = 1 := rfl
@[simp] theorem State.putWork_pending (s : State) (w : Work) : (s.putWork w).pending = s.pending := rfl
@[simp] theorem State.putWork_response (s : State) (w : Work) : (s.putWork w).response = s.response := rfl
@[simp] theorem State.putWork_inputs (s : State) (w : Work) : (s.putWork w).inputs = s.inputs := rfl
@[simp] theorem State.putWork_draws (s : State) (w : Work) : (s.putWork w).draws = s.draws := rfl
@[simp] theorem State.putWork_resets (s : State) (w : Work) : (s.putWork w).resets = s.resets := rfl

/-! ### putChaining -/

@[simp] theorem State.putChaining_params (s : State) (x : Chaining) : (s.putChaining x).params = s.params := rfl
@[simp] theorem State.putChaining_config (s : State) (x : Chaining) : (s.putChaining x).config = s.config := rfl
@[simp] theorem State.putChaining_status (s : State) (x : Chaining) : (s.putChaining x).status = s.status := rfl
@[simp] theorem State.putChaining_key (s : State) (x : Chaining) : (s.putChaining x).key = s.key := rfl
@[simp] theorem State.putChaining_keyLen (s : State) (x : Chaining) : (s.putChaining x).keyLen = s.keyLen := rfl
@[simp] theorem State.putChaining_iv (s : State) (x : Chaining) : (s.putChaining x).iv = s.iv := rfl
@[simp] theorem State.putChaining_ivLen (s : State) (x : Chaining) : (s.putChaining x).ivLen = s.ivLen := rfl
@[simp] theorem State.putChaining_msgLen (s : State) (x : Chaining) : (s.putChaining x).msgLen = s.msgLen := rfl
@[simp] theorem State.putChaining_outLen (s : State) (x : Chaining) : (s.putChaining x).outLen = s.outLen := rfl
@[simp] theorem State.putChaining_subkeyCount (s : State) (x : Chaining) : (s.putChaining x).subkeyCount = s.subkeyCount := rfl
@[simp] theorem State.putChaining_mem (s : State) (x : Chaining) : (s.putChaining x).mem = s.mem := rfl
@[simp] theorem State.putChaining_work (s : State) (x : Chaining) : (s.putChaining x).work = x.work := rfl
@[simp] theorem State.putChaining_scratch (s : State) (x : Chaining) : (s.putChaining x).scratch = s.scratch := rfl
@[simp] theorem State.putChaining_chain (s : State) (x : Chaining) : (s.putChaining x).chain = { prevC := blockReg x.prevC, prevP := blockReg x.prevP } := rfl
@[simp] theorem State.putChaining_seq (s : State) (x : Chaining) : (s.putChaining x).seq = s.seq := rfl
@[simp] theorem State.putChaining_blockIndex (s : State) (x : Chaining) : (s.putChaining x).blockIndex = x.index := rfl
@[simp] theorem State.putChaining_pending (s : State) (x : Chaining) : (s.putChaining x).pending = s.pending := rfl
@[simp] theorem State.putChaining_response (s : State) (x : Chaining) : (s.putChaining x).response = s.response := rfl
@[simp] theorem State.putChaining_inputs (s : State) (x : Chaining) : (s.putChaining x).inputs = s.inputs := rfl
@[simp] theorem State.putChaining_draws (s : State) (x : Chaining) : (s.putChaining x).draws = s.draws := rfl
@[simp] theorem State.putChaining_resets (s : State) (x : Chaining) : (s.putChaining x).resets = s.resets := rfl

/-! ### accept -/

@[simp] theorem State.accept_params (s : State) (w : Word) : (s.accept w).params = s.params := rfl
@[simp] theorem State.accept_config (s : State) (w : Word) : (s.accept w).config = s.config := rfl
@[simp] theorem State.accept_status (s : State) (w : Word) : (s.accept w).status = s.status.accepted w := rfl
@[simp] theorem State.accept_key (s : State) (w : Word) : (s.accept w).key = s.key := rfl
@[simp] theorem State.accept_keyLen (s : State) (w : Word) : (s.accept w).keyLen = s.keyLen := rfl
@[simp] theorem State.accept_iv (s : State) (w : Word) : (s.accept w).iv = s.iv := rfl
@[simp] theorem State.accept_ivLen (s : State) (w : Word) : (s.accept w).ivLen = s.ivLen := rfl
@[simp] theorem State.accept_msgLen (s : State) (w : Word) : (s.accept w).msgLen = s.msgLen := rfl
@[simp] theorem State.accept_outLen (s : State) (w : Word) : (s.accept w).outLen = s.outLen := rfl
@[simp] theorem State.accept_subkeyCount (s : State) (w : Word) : (s.accept w).subkeyCount = s.subkeyCount := rfl
@[simp] theorem State.accept_mem (s : State) (w : Word) : (s.accept w).mem = s.mem := rfl
@[simp] theorem State.accept_work (s : State) (w : Word) : (s.accept w).work = s.work := rfl
@[simp] theorem State.accept_scratch (s : State) (w : Word) : (s.accept w).scratch = s.scratch := rfl
@[simp] theorem State.accept_chain (s : State) (w : Word) : (s.accept w).chain = s.chain := rfl
@[simp] theorem State.accept_seq (s : State) (w : Word) : (s.accept w).seq = .running w (busyExtra s.params.latency s.draws) := rfl
@[simp] theorem State.accept_blockIndex (s : State) (w : Word) : (s.accept w).blockIndex = s.blockIndex := rfl
@[simp] theorem State.accept_pending (s : State) (w : Word) : (s.accept w).pending = s.pending := rfl
@[simp] theorem State.accept_response (s : State) (w : Word) : (s.accept w).response = s.response := rfl
@[simp] theorem State.accept_inputs (s : State) (w : Word) : (s.accept w).inputs = s.inputs := rfl
@[simp] theorem State.accept_draws (s : State) (w : Word) : (s.accept w).draws = s.draws + 1 := rfl
@[simp] theorem State.accept_resets (s : State) (w : Word) : (s.accept w).resets = s.resets := rfl

/-! ### dropWrite -/

@[simp] theorem State.dropWrite_params (s : State) : s.dropWrite.params = s.params := rfl
@[simp] theorem State.dropWrite_config (s : State) : s.dropWrite.config = s.config := rfl
@[simp] theorem State.dropWrite_status (s : State) : s.dropWrite.status = { s.status with wrIgnored := true } := rfl
@[simp] theorem State.dropWrite_key (s : State) : s.dropWrite.key = s.key := rfl
@[simp] theorem State.dropWrite_keyLen (s : State) : s.dropWrite.keyLen = s.keyLen := rfl
@[simp] theorem State.dropWrite_iv (s : State) : s.dropWrite.iv = s.iv := rfl
@[simp] theorem State.dropWrite_ivLen (s : State) : s.dropWrite.ivLen = s.ivLen := rfl
@[simp] theorem State.dropWrite_msgLen (s : State) : s.dropWrite.msgLen = s.msgLen := rfl
@[simp] theorem State.dropWrite_outLen (s : State) : s.dropWrite.outLen = s.outLen := rfl
@[simp] theorem State.dropWrite_subkeyCount (s : State) : s.dropWrite.subkeyCount = s.subkeyCount := rfl
@[simp] theorem State.dropWrite_mem (s : State) : s.dropWrite.mem = s.mem := rfl
@[simp] theorem State.dropWrite_work (s : State) : s.dropWrite.work = s.work := rfl
@[simp] theorem State.dropWrite_scratch (s : State) : s.dropWrite.scratch = s.scratch := rfl
@[simp] theorem State.dropWrite_chain (s : State) : s.dropWrite.chain = s.chain := rfl
@[simp] theorem State.dropWrite_seq (s : State) : s.dropWrite.seq = s.seq := rfl
@[simp] theorem State.dropWrite_blockIndex (s : State) : s.dropWrite.blockIndex = s.blockIndex := rfl
@[simp] theorem State.dropWrite_pending (s : State) : s.dropWrite.pending = s.pending := rfl
@[simp] theorem State.dropWrite_response (s : State) : s.dropWrite.response = .written := rfl
@[simp] theorem State.dropWrite_inputs (s : State) : s.dropWrite.inputs = s.inputs := rfl
@[simp] theorem State.dropWrite_draws (s : State) : s.dropWrite.draws = s.draws := rfl
@[simp] theorem State.dropWrite_resets (s : State) : s.dropWrite.resets = s.resets := rfl

/-! ### drawRead -/

@[simp] theorem State.drawRead_params (s : State) : s.drawRead.params = s.params := rfl
@[simp] theorem State.drawRead_config (s : State) : s.drawRead.config = s.config := rfl
@[simp] theorem State.drawRead_status (s : State) : s.drawRead.status = s.status := rfl
@[simp] theorem State.drawRead_key (s : State) : s.drawRead.key = s.key := rfl
@[simp] theorem State.drawRead_keyLen (s : State) : s.drawRead.keyLen = s.keyLen := rfl
@[simp] theorem State.drawRead_iv (s : State) : s.drawRead.iv = s.iv := rfl
@[simp] theorem State.drawRead_ivLen (s : State) : s.drawRead.ivLen = s.ivLen := rfl
@[simp] theorem State.drawRead_msgLen (s : State) : s.drawRead.msgLen = s.msgLen := rfl
@[simp] theorem State.drawRead_outLen (s : State) : s.drawRead.outLen = s.outLen := rfl
@[simp] theorem State.drawRead_subkeyCount (s : State) : s.drawRead.subkeyCount = s.subkeyCount := rfl
@[simp] theorem State.drawRead_mem (s : State) : s.drawRead.mem = s.mem := rfl
@[simp] theorem State.drawRead_work (s : State) : s.drawRead.work = s.work := rfl
@[simp] theorem State.drawRead_scratch (s : State) : s.drawRead.scratch = s.scratch := rfl
@[simp] theorem State.drawRead_chain (s : State) : s.drawRead.chain = s.chain := rfl
@[simp] theorem State.drawRead_seq (s : State) : s.drawRead.seq = s.seq := rfl
@[simp] theorem State.drawRead_blockIndex (s : State) : s.drawRead.blockIndex = s.blockIndex := rfl
@[simp] theorem State.drawRead_pending (s : State) : s.drawRead.pending = s.pending := rfl
@[simp] theorem State.drawRead_response (s : State) : s.drawRead.response = .read (Config.busyRead s.draws) := rfl
@[simp] theorem State.drawRead_inputs (s : State) : s.drawRead.inputs = s.inputs := rfl
@[simp] theorem State.drawRead_draws (s : State) : s.drawRead.draws = s.draws + 1 := rfl
@[simp] theorem State.drawRead_resets (s : State) : s.drawRead.resets = s.resets := rfl

/-! ### takePins -/

@[simp] theorem State.takePins_params (s : State) : s.takePins.params = s.params := rfl
@[simp] theorem State.takePins_config (s : State) : s.takePins.config = s.config := rfl
@[simp] theorem State.takePins_status (s : State) : s.takePins.status = s.status := rfl
@[simp] theorem State.takePins_key (s : State) : s.takePins.key = s.key := rfl
@[simp] theorem State.takePins_keyLen (s : State) : s.takePins.keyLen = s.keyLen := rfl
@[simp] theorem State.takePins_iv (s : State) : s.takePins.iv = s.iv := rfl
@[simp] theorem State.takePins_ivLen (s : State) : s.takePins.ivLen = s.ivLen := rfl
@[simp] theorem State.takePins_msgLen (s : State) : s.takePins.msgLen = s.msgLen := rfl
@[simp] theorem State.takePins_outLen (s : State) : s.takePins.outLen = s.outLen := rfl
@[simp] theorem State.takePins_subkeyCount (s : State) : s.takePins.subkeyCount = s.subkeyCount := rfl
@[simp] theorem State.takePins_mem (s : State) : s.takePins.mem = s.mem := rfl
@[simp] theorem State.takePins_work (s : State) : s.takePins.work = s.work := rfl
@[simp] theorem State.takePins_scratch (s : State) : s.takePins.scratch = s.scratch := rfl
@[simp] theorem State.takePins_chain (s : State) : s.takePins.chain = s.chain := rfl
@[simp] theorem State.takePins_seq (s : State) : s.takePins.seq = s.seq := rfl
@[simp] theorem State.takePins_blockIndex (s : State) : s.takePins.blockIndex = s.blockIndex := rfl
@[simp] theorem State.takePins_pending (s : State) : s.takePins.pending = s.pending := rfl
@[simp] theorem State.takePins_response (s : State) : s.takePins.response = s.response := rfl
@[simp] theorem State.takePins_inputs (s : State) : s.takePins.inputs = s.inputs.tail := rfl
@[simp] theorem State.takePins_draws (s : State) : s.takePins.draws = s.draws := rfl
@[simp] theorem State.takePins_resets (s : State) : s.takePins.resets = s.resets := rfl

end Sys2Proof.Machine
end

