-- ==== Sys2Proof/Laws/Memory.lean ====
section
/-! SUPPORT. The laws of the RAMs: every operation keeps the canonical form, and what a read after a write returns. -/

namespace Sys2Proof.Machine

/-! ### Cells -/

theorem Memory.address_of_mem_cells (bs : List Byte) (base : Nat) (c : Host.Cell)
    (h : c ∈ Memory.cells base bs) : base ≤ c.1 ∧ c.1 < base + bs.length := by
  induction bs generalizing base with
  | nil => simp [Memory.cells] at h
  | cons b bs ih =>
    rcases List.mem_cons.1 h with rfl | h
    · simp
    · have := ih _ h
      simp only [List.length_cons]
      omega

theorem Memory.cells_wf (bs : List Byte) (base : Nat) : (Memory.cells base bs).wf := by
  induction bs generalizing base with
  | nil => exact List.Pairwise.nil
  | cons b bs ih =>
    refine List.Pairwise.cons (fun c hc => ?_) (ih _)
    have := Memory.address_of_mem_cells bs (base + 1) c hc
    show base < c.1
    omega

theorem Memory.find_cells (bs : List Byte) (base a : Nat) :
    (Memory.cells base bs).find? (fun c => c.1 == a) =
      if base ≤ a ∧ a < base + bs.length then some (a, bs.getD (a - base) 0) else none := by
  induction bs generalizing base with
  | nil => simp [Memory.cells]
  | cons b bs ih =>
    by_cases h : base = a
    · subst h; simp [Memory.cells]
    · rw [Memory.cells, List.find?_cons_of_neg (by simpa using h), ih]
      by_cases h' : base + 1 ≤ a ∧ a < base + 1 + bs.length
      · obtain ⟨k, hk⟩ : ∃ k, a = base + 1 + k := ⟨a - (base + 1), by omega⟩
        have h1 : a - base = k + 1 := by omega
        have h2 : a - (base + 1) = k := by omega
        rw [if_pos h', if_pos (by simp only [List.length_cons]; omega), h1, h2, List.getD_cons_succ]
      · rw [if_neg h', if_neg (by simp only [List.length_cons]; omega)]

/-! ### Write -/

/-- A write keeps the canonical form. -/
theorem Memory.write_wf (m : Memory) (base : Nat) (bs : List Byte) (h : m.wf) : (m.write base bs).wf := by
  unfold Memory.write Memory.wf
  have below : ∀ x ∈ m.filter (fun c => decide (c.1 < base)), x.1 < base := fun x hx => by
    simpa using (List.mem_filter.1 hx).2
  have above : ∀ x ∈ m.filter (fun c => decide (base + bs.length ≤ c.1)), base + bs.length ≤ x.1 := fun x hx => by
    simpa using (List.mem_filter.1 hx).2
  refine List.pairwise_append.2 ⟨List.pairwise_append.2 ⟨h.filter _, cells_wf bs base, fun x hx y hy => ?_⟩,
    h.filter _, fun x hx y hy => ?_⟩
  · have := below x hx
    have := address_of_mem_cells bs base y hy
    omega
  · have := above y hy
    rcases List.mem_append.1 hx with hx | hx
    · have := below x hx
      omega
    · have := address_of_mem_cells bs base x hx
      omega

/-- The addresses listed after a write are those listed before and those written. -/
theorem Memory.mem_write (m : Memory) (base : Nat) (bs : List Byte) (c : Host.Cell) (h : c ∈ m.write base bs) :
    c ∈ m ∨ (base ≤ c.1 ∧ c.1 < base + bs.length) := by
  rcases List.mem_append.1 h with h | h
  · rcases List.mem_append.1 h with h | h
    · exact .inl (List.mem_filter.1 h).1
    · exact .inr (address_of_mem_cells bs base c h)
  · exact .inl (List.mem_filter.1 h).1

theorem Memory.find_filter (m : Memory) (p : Nat → Bool) (a : Nat) :
    (m.filter (fun c => p c.1)).find? (fun c => c.1 == a) = if p a then m.find? (fun c => c.1 == a) else none := by
  induction m with
  | nil => simp
  | cons c m ih =>
    by_cases hc : c.1 = a
    · subst hc
      by_cases hp : p c.1
      · simp [hp]
      · rw [List.filter_cons_of_neg (by simpa using hp), ih, if_neg hp, if_neg hp]
    · by_cases hp : p c.1
      · rw [List.filter_cons_of_pos (by simpa using hp), List.find?_cons_of_neg (by simpa using hc), ih,
          List.find?_cons_of_neg (by simpa using hc)]
      · rw [List.filter_cons_of_neg (by simpa using hp), ih, List.find?_cons_of_neg (by simpa using hc)]

/-- A read after a write: the byte written, inside; what was there before, outside. -/
theorem Memory.read_write (m : Memory) (base : Nat) (bs : List Byte) (a : Nat) :
    (m.write base bs).read a =
      if base ≤ a ∧ a < base + bs.length then some (bs.getD (a - base) 0) else m.read a := by
  unfold Memory.read Memory.write
  rw [List.find?_append, List.find?_append, find_cells,
    find_filter m (fun x => decide (x < base)), find_filter m (fun x => decide (base + bs.length ≤ x))]
  by_cases h1 : a < base
  · have h2 : ¬ (base ≤ a ∧ a < base + bs.length) := by omega
    have h3 : ¬ base + bs.length ≤ a := by omega
    simp only [h1, h2, h3, decide_true, decide_false, if_true, if_false, Bool.false_eq_true, Option.or_none]
  · by_cases h2 : a < base + bs.length
    · have h3 : base ≤ a ∧ a < base + bs.length := by omega
      have h4 : ¬ base + bs.length ≤ a := by omega
      simp only [h1, h3, h4, decide_false, if_true, if_false, Bool.false_eq_true, Option.none_or, Option.or_none,
        and_self]
    · have h3 : ¬ (base ≤ a ∧ a < base + bs.length) := by omega
      have h4 : base + bs.length ≤ a := by omega
      simp only [h1, h3, h4, decide_true, decide_false, if_true, if_false, Bool.false_eq_true, Option.none_or]

/-! ### Bytes of the state -/

/-- A byte of RAM depends on the RAM contents and the index of the last reset alone. -/
theorem State.byteAt_congr {s t : State} (hm : t.mem = s.mem) (hr : t.resets = s.resets) (a : Nat) :
    t.byteAt a = s.byteAt a := by
  simp only [State.byteAt, hm, hr]

/-- A byte of RAM after a write. -/
theorem State.byteAt_of_write {s t : State} {base : Nat} {bs : List Byte} (hm : t.mem = s.mem.write base bs)
    (hr : t.resets = s.resets) (a : Nat) :
    t.byteAt a = if base ≤ a ∧ a < base + bs.length then bs.getD (a - base) 0 else s.byteAt a := by
  simp only [State.byteAt, hm, hr, Memory.read_write]
  split <;> rfl

@[simp] theorem State.bytesAt_length (s : State) (base n : Nat) : (s.bytesAt base n).length = n := by
  simp [State.bytesAt]

theorem State.bytesAt_getD (s : State) (base n o : Nat) (h : o < n) :
    (s.bytesAt base n).getD o 0 = s.byteAt (base + o) := by
  simp [State.bytesAt, List.getD_eq_getElem?_getD, h]

end Sys2Proof.Machine
end

