-- ==== Sys2Proof/Laws/Exec.lean ====
section
/-! SUPPORT. What a command, and the shared operations under it, can do: one spec lemma for each. -/

namespace Sys2Proof.Machine

/-! ### The check list -/

@[simp] theorem firstFailure_nil : firstFailure [] = none := rfl
@[simp] theorem firstFailure_some (d : DetailCode) (cs : List (Option DetailCode)) :
    firstFailure (some d :: cs) = some d := rfl
@[simp] theorem firstFailure_none (cs : List (Option DetailCode)) :
    firstFailure (none :: cs) = firstFailure cs := rfl

/-- A check list passes exactly when each check does. -/
theorem firstFailure_eq_none (cs : List (Option DetailCode)) :
    firstFailure cs = none ↔ ∀ c ∈ cs, c = none := by
  induction cs with
  | nil => simp
  | cons c cs ih => cases c <;> simp [ih]

/-! ### Lengths of the codecs -/

@[simp] theorem wordBytes_length (w : Word) : (wordBytes w).length = 4 := rfl

@[simp] theorem leBytes_length (ws : List Word) : (leBytes ws).length = 4 * ws.length := by
  induction ws with
  | nil => rfl
  | cons w ws ih => simp [leBytes, ih]; omega

@[simp] theorem storeBlock_length (w : Work) : (storeBlock w).length = 16 := rfl

@[simp] theorem zero16_length : zero16.length = 16 := rfl

theorem xorBytes_length (x y : List Byte) : (xorBytes x y).length = min x.length y.length := by
  simp [xorBytes]

theorem blockAt_length (k : Nat) (x : List Byte) : (blockAt k x).length = min 16 (x.length - 16 * k) := by
  simp [blockAt]

/-! ### Every command answers a next state, and leaves the bus and the model's own fields -/

/-- What no command touches: the parameters, the bus, the model's own fields; and every command ends IDLE. -/
structure LeavesBus (s t : State) : Prop where
  params   : t.params = s.params
  pending  : t.pending = s.pending
  response : t.response = s.response
  inputs   : t.inputs = s.inputs
  draws    : t.draws = s.draws
  resets   : t.resets = s.resets
  seq      : t.seq = .idle

theorem blockCommand_next (f : List Word → Nat → List Byte → Work) (s : State) :
    ∃ t, blockCommand f s = .next t ∧ LeavesBus s t := by
  unfold blockCommand
  split
  · exact ⟨_, rfl, by constructor <;> simp⟩
  · exact ⟨_, rfl, by constructor <;> simp⟩

theorem execEncryptMsg_next (s : State) : ∃ t, execEncryptMsg s = .next t ∧ LeavesBus s t := by
  unfold execEncryptMsg
  split
  · exact ⟨_, rfl, by constructor <;> simp⟩
  · exact ⟨_, rfl, by constructor <;> simp⟩

theorem execDecryptMsg_next (s : State) : ∃ t, execDecryptMsg s = .next t ∧ LeavesBus s t := by
  unfold execDecryptMsg
  split
  · exact ⟨_, rfl, by constructor <;> simp⟩
  · dsimp only
    split
    · exact ⟨_, rfl, by constructor <;> simp⟩
    · exact ⟨_, rfl, by constructor <;> simp⟩

theorem execExpandKey_next (s : State) : ∃ t, execExpandKey s = .next t ∧ LeavesBus s t := by
  unfold execExpandKey
  split
  · exact ⟨_, rfl, by constructor <;> simp⟩
  · exact ⟨_, rfl, by constructor <;> simp⟩

theorem execPad_next (s : State) : ∃ t, execPad s = .next t ∧ LeavesBus s t := by
  unfold execPad
  split
  · exact ⟨_, rfl, by constructor <;> simp⟩
  · exact ⟨_, rfl, by constructor <;> simp⟩

theorem execUnpad_next (s : State) : ∃ t, execUnpad s = .next t ∧ LeavesBus s t := by
  unfold execUnpad
  split
  · exact ⟨_, rfl, by constructor <;> simp⟩
  · split
    · exact ⟨_, rfl, by constructor <;> simp⟩
    · exact ⟨_, rfl, by constructor <;> simp⟩

theorem execSetRounds_next (imm : Nat) (s : State) : ∃ t, execSetRounds imm s = .next t ∧ LeavesBus s t := by
  unfold execSetRounds
  split
  · exact ⟨_, rfl, by constructor <;> simp⟩
  · exact ⟨_, rfl, by constructor <;> simp⟩

theorem execSetBlock_next (imm : Nat) (s : State) : ∃ t, execSetBlock imm s = .next t ∧ LeavesBus s t := by
  unfold execSetBlock
  split
  · exact ⟨_, rfl, by constructor <;> simp⟩
  · exact ⟨_, rfl, by constructor <;> simp⟩

/-- Every command completes, in every state. -/
theorem exec_next (i : Instr) (s : State) : ∃ t, exec i s = .next t ∧ LeavesBus s t := by
  cases i with
  | nop => exact ⟨_, rfl, by constructor <;> simp⟩
  | setRounds imm => exact execSetRounds_next imm s
  | setBlock imm => exact execSetBlock_next imm s
  | clearStatus => exact ⟨_, rfl, by constructor <;> simp⟩
  | expandKey => exact execExpandKey_next s
  | blockEnc => exact blockCommand_next encWork s
  | blockDec => exact blockCommand_next decWork s
  | encryptMsg => exact execEncryptMsg_next s
  | decryptMsg => exact execDecryptMsg_next s
  | pad => exact execPad_next s
  | unpad => exact execUnpad_next s

/-- So does every command word, legal or not. -/
theorem runCommandWord_next (w : Word) (s : State) : ∃ t, runCommandWord w s = .next t ∧ LeavesBus s t := by
  unfold runCommandWord
  split
  · exact exec_next _ s
  · exact ⟨_, rfl, by constructor <;> simp⟩

end Sys2Proof.Machine
end

