-- ==== Sys2Proof/Laws/AddressMap.lean ====
section
/-! SUPPORT. The address map said once (spec/20_memory.md R51): the address of each place, and what `targetOf` answers. -/

namespace Sys2Proof.Machine

/-- The host byte address of a place. -/
def Target.address : Target → Nat
  | .cmd => 0x0000
  | .status => 0x0004
  | .config => 0x0008
  | .keyLen => 0x000C
  | .ivLen => 0x0010
  | .msgLen => 0x0014
  | .outLen => 0x0018
  | .subkeyCount => 0x001C
  | .key n => 0x0020 + 4 * n.val
  | .iv n => 0x0040 + 4 * n.val
  | .subkey k => sBase + 4 * k
  | .inBuf o => inBase + o
  | .outBuf o => outBase + o

/-- The bound on the index of a place in a RAM. -/
def Target.InRange (bufBytes : Nat) : Target → Prop
  | .subkey k => k < Config.tMax
  | .inBuf o => o < bufBytes
  | .outBuf o => o < bufBytes
  | _ => True

/-- The register at a word index has that index's address. -/
theorem registerAt_spec (n : Nat) (h : n < 20) (bufBytes : Nat) :
    (registerAt n).address = 4 * n ∧ (registerAt n).InRange bufBytes := by
  rcases n with _ | _ | _ | _ | _ | _ | _ | _ | n
  all_goals try exact ⟨rfl, trivial⟩
  simp only [registerAt]
  split
  · rename_i h8
    refine ⟨?_, trivial⟩
    simp only [Target.address, Fin.val_ofNat, Nat.mod_eq_of_lt h8]
    omega
  · rename_i h8
    refine ⟨?_, trivial⟩
    simp only [Target.address, Fin.val_ofNat, Nat.mod_eq_of_lt (show n - 8 < 4 by omega)]
    omega

/-- A place in a RAM window has the address asked for. -/
theorem windowAt_spec {bufBytes a : Nat} {tg : Target} (ha : a % 4 = 0) (h : windowAt bufBytes a = some tg) :
    tg.address = a ∧ tg.InRange bufBytes := by
  have hs : sBase = 0x1000 := rfl
  unfold windowAt at h
  split at h
  · cases h
    simp only [Target.address, Target.InRange]
    omega
  · split at h
    · cases h
      simp only [Target.address, Target.InRange]
      omega
    · split at h
      · cases h
        simp only [Target.address, Target.InRange]
        omega
      · cases h

/-- What `targetOf` answers lies at the address asked for, which is aligned, and within its region. -/
theorem targetOf_spec {bufBytes : Nat} {addr : BitVec 16} {tg : Target} (h : targetOf bufBytes addr = some tg) :
    addr.toNat % 4 = 0 ∧ tg.address = addr.toNat ∧ tg.InRange bufBytes := by
  unfold targetOf at h
  split at h
  · cases h
  · rename_i ha
    split at h
    · cases h
      obtain ⟨h1, h2⟩ := registerAt_spec (addr.toNat / 4) (by omega) bufBytes
      exact ⟨by omega, by omega, h2⟩
    · exact ⟨by omega, windowAt_spec (by omega) h⟩

/-- Aligned addresses of the register block and of the RAM windows name a place; all others name none. -/
theorem targetOf_isSome (bufBytes : Nat) (addr : BitVec 16) :
    (targetOf bufBytes addr).isSome = true ↔ addr.toNat % 4 = 0 ∧
      (addr.toNat < 0x0050 ∨ (sBase ≤ addr.toNat ∧ addr.toNat < sBase + 4 * Config.tMax) ∨
       (inBase ≤ addr.toNat ∧ addr.toNat < inBase + bufBytes) ∨
       (outBase ≤ addr.toNat ∧ addr.toNat < outBase + bufBytes)) := by
  unfold targetOf windowAt
  split_ifs <;> simp <;> omega

end Sys2Proof.Machine
end

