-- ==== Sys2Proof/Laws/Step.lean ====
section
/-! SUPPORT. What a bus transaction and a step can do, said once: later proofs cite these and unfold neither. -/

namespace Sys2Proof.Machine

/-! ### The bus -/

/-- What one transaction can be. -/
inductive AccessCase (s : State) (q : BusReq) : State → Prop where
  | error : AccessCase s q { s with response := .error }
  | dropped : q.we = true → s.busy = true → AccessCase s q s.dropWrite
  | wrote (tg : Target) : q.we = true → s.busy = false → targetOf s.params.bufBytes q.addr = some tg →
      tg.writable = true → AccessCase s q { s.writeTarget q.wdata tg with response := .written }
  | drew : q.we = false → s.busy = true → AccessCase s q s.drawRead
  | read (tg : Target) : q.we = false → targetOf s.params.bufBytes q.addr = some tg →
      (s.busy = true → tg = .status) → AccessCase s q { s with response := .read (s.readTarget tg) }

/-- A transaction is one of those cases (20_memory.md R53). -/
theorem hostAccess_cases (s : State) (q : BusReq) : AccessCase s q (s.hostAccess q) := by
  unfold State.hostAccess
  split
  · exact .error
  · rename_i tg htg
    by_cases hw : q.we = true
    · rw [if_pos hw]
      unfold State.hostWrite
      by_cases h1 : tg.writable = false
      · rw [if_pos h1]; exact .error
      · rw [if_neg h1]
        by_cases h2 : s.busy = true
        · rw [if_pos h2]; exact .dropped hw h2
        · rw [if_neg h2]; exact .wrote tg hw (by simpa using h2) htg (by simpa using h1)
    · rw [if_neg hw]
      unfold State.hostRead
      by_cases h1 : s.busy = true ∧ tg ≠ .status
      · rw [if_pos h1]; exact .drew (by simpa using hw) h1.1
      · rw [if_neg h1]
        exact .read tg (by simpa using hw) htg fun hb => by
          by_contra hne
          exact h1 ⟨hb, hne⟩

/-- The pins hold a request exactly when each of the four signals is as it was seen (20_memory.md R50). -/
theorem Pins.holds_iff (p : Pins) (q : BusReq) :
    p.holds q = true ↔ p.req = true ∧ p.we = q.we ∧ p.addr = q.addr ∧ p.wdata = q.wdata := by
  simp [Pins.holds, and_assoc]

/-- What the bus does at an edge that does not stop: it sees what is on the pins, or completes a held request. -/
theorem busEdge_cases {p : Pins} {s t : State} (h : busEdge p s = .ok t) :
    (s.pending = none ∧ t = { s with pending := p.request, response := .noAck }) ∨
    ∃ q, s.pending = some q ∧ p.holds q = true ∧ t = { s with pending := none }.hostAccess q := by
  unfold busEdge at h
  split at h
  · rename_i hp
    exact .inl ⟨hp, by simpa using h.symm⟩
  · rename_i q hq
    by_cases hh : p.holds q = true
    · rw [if_pos hh] at h
      exact .inr ⟨q, hq, hh, by simpa using h.symm⟩
    · rw [if_neg hh] at h
      cases h

/-! ### The step -/

/-- What a step that answers a next state is: a reset edge; or the bus and then the sequencer, which idles, counts down,
or runs the captured word. -/
theorem step_cases {s t : State} (h : step s = .next t) :
    (s.pinsNow.rstN = false ∧ t = s.takePins.resetEdge s.pinsNow) ∨
    ∃ s', s.pinsNow.rstN = true ∧ busEdge s.pinsNow s.takePins = .ok s' ∧
      ((s.seq = .idle ∧ t = s') ∨
       (∃ w n, s.seq = .running w (n + 1) ∧ t = { s' with seq := .running w n }) ∨
       ∃ w, s.seq = .running w 0 ∧ runCommandWord w s' = .next t) := by
  unfold step clockEdge at h
  by_cases hr : s.pinsNow.rstN = true
  · rw [if_pos hr] at h
    split at h
    · cases h
    · rename_i s' hs'
      refine .inr ⟨s', hr, hs', ?_⟩
      change sequencerEdge s.seq s' = _ at h
      unfold sequencerEdge at h
      split at h
      · exact .inl ⟨‹_›, by simpa using h.symm⟩
      · exact .inr (.inl ⟨_, _, ‹_›, by simpa using h.symm⟩)
      · exact .inr (.inr ⟨_, ‹_›, h⟩)
  · rw [if_neg hr] at h
    exact .inl ⟨by simpa using hr, by simpa using h.symm⟩

end Sys2Proof.Machine
end

