-- ==== Sys2Proof/Laws/HostProgram.lean ====
section
/-! SUPPORT. What a statement of a host program can do, and what makes a run over, said once. -/

namespace Sys2Proof.Machine

/-! ### Commands of a run -/

@[simp] theorem Issued.seeStatus_nil (v : Word) : Issued.seeStatus v [] = [] := rfl

@[simp] theorem Issued.seeStatus_cons (v : Word) (c : Issued) (cs : List Issued) :
    Issued.seeStatus v (c :: cs) = { c with ended := c.ended || showsEnd c.op v } :: cs := rfl

/-- A value of STATUS ends a command exactly when it reads BUSY = 0 and LAST_OP the command's opcode field (R259). -/
theorem showsEnd_iff (op : BitVec 8) (v : Word) :
    showsEnd op v = true ↔ v.getLsbD 0 = false ∧ v.extractLsb' 16 8 = op := by
  simp [showsEnd]

/-- A write issues a command exactly when it is to CMD and the engine is IDLE. -/
@[simp] theorem Stmt.issues_wr (a : BitVec 16) (v : Word) (s : State) :
    (Stmt.wr a v).issues s = true ↔ a = addrCmd ∧ s.busy = false := by
  simp [Stmt.issues]

@[simp] theorem Stmt.issues_rd (a : BitVec 16) (s : State) : (Stmt.rd a).issues s = false := rfl

/-! ### Statements -/

@[simp] theorem Run.note_state (r : Run) (st : Stmt) (seen done : State) : (r.note st seen done).state = done := by
  cases st with
  | wr a v => rfl
  | rd a => simp only [Run.note]; split <;> rfl

/-- A write adds at most one command to a run, and observes nothing. -/
theorem Run.note_wr (r : Run) (a : BitVec 16) (v : Word) (seen done : State) :
    (r.note (.wr a v) seen done).observed = r.observed ∧
      (r.note (.wr a v) seen done).issued =
        if (Stmt.wr a v).issues seen then { op := opField v, ended := false } :: r.issued else r.issued :=
  ⟨rfl, rfl⟩

/-- A read issues no command; only one of STATUS can end one. -/
theorem Run.note_rd_issued (r : Run) (a : BitVec 16) (seen done : State) (h : a ≠ addrStatus) :
    (r.note (.rd a) seen done).issued = r.issued := by
  simp only [Run.note]
  split
  · rw [if_neg h]
  · rfl

/-- A statement that completes is two steps, the edge that sees its request and the edge that acknowledges it. -/
theorem Run.statement_next {r r' : Run} {st : Stmt} (h : r.statement st = .next r') :
    ∃ seen done, r.state.present st.request = .next seen ∧ step seen = .next done ∧ r' = r.note st seen done := by
  unfold Run.statement at h
  split at h
  · cases h
  · cases h
  · rename_i seen hs
    split at h
    · cases h
    · cases h
    · exact ⟨_, _, hs, ‹_›, by simpa using h.symm⟩

/-! ### The end of a run -/

/-- A run is over exactly when all its commands have ended and none is busy (R260). -/
theorem Run.isOver_iff (r : Run) : r.isOver = true ↔ (∀ c ∈ r.issued, c.ended = true) ∧ r.state.busy = false := by
  simp [Run.isOver]

/-- A run has an observation exactly when it is over. -/
theorem Run.observation_isSome (r : Run) : r.observation.isSome = r.isOver := by
  unfold Run.observation
  split <;> simp_all

end Sys2Proof.Machine
end

