-- ==== Sys2Proof/Laws/PerInstr.lean ====
section
/-! SUPPORT. Per command: the two fields of its word (spec/30_encoding.md R70 to R73). -/

namespace Sys2Proof.Laws

/-- The OP and ARG fields of a concatenation of them (R70). -/
theorem fields_of_append (a : BitVec 24) (o : BitVec 8) :
    opField (a ++ o) = o ∧ argField (a ++ o) = a := by
  constructor
  · apply BitVec.eq_of_getLsbD_eq
    intro i hi
    simp only [opField, BitVec.getLsbD_extractLsb', BitVec.getLsbD_append]
    simp [hi]
  · apply BitVec.eq_of_getLsbD_eq
    intro i hi
    simp only [argField, BitVec.getLsbD_extractLsb', BitVec.getLsbD_append]
    simp [hi]

/-- The word of a well-formed command holds its opcode in OP and its argument, undiminished, in ARG. -/
def EncodedFields.Statement (i : Instr) : Prop :=
  i.wellFormed = true → opField (encode i) = i.opcode ∧ (argField (encode i)).toNat = i.argument

/-- The fields of a word whose argument fits. -/
theorem encodedFields_of_fits (i : Instr) (h : i.argument < 2 ^ 24) :
    opField (encode i) = i.opcode ∧ (argField (encode i)).toNat = i.argument := by
  unfold encode
  rw [(fields_of_append _ _).1, (fields_of_append _ _).2, BitVec.toNat_ofNat, Nat.mod_eq_of_lt h]
  exact ⟨rfl, rfl⟩

theorem EncodedFields.nop : EncodedFields.Statement .nop := fun _ => encodedFields_of_fits _ (by decide)
theorem EncodedFields.setRounds (imm : Nat) : EncodedFields.Statement (.setRounds imm) := fun h =>
  encodedFields_of_fits _ (of_decide_eq_true h)
theorem EncodedFields.setBlock (imm : Nat) : EncodedFields.Statement (.setBlock imm) := fun h =>
  encodedFields_of_fits _ (of_decide_eq_true h)
theorem EncodedFields.clearStatus : EncodedFields.Statement .clearStatus := fun _ =>
  encodedFields_of_fits _ (by decide)
theorem EncodedFields.expandKey : EncodedFields.Statement .expandKey := fun _ => encodedFields_of_fits _ (by decide)
theorem EncodedFields.blockEnc : EncodedFields.Statement .blockEnc := fun _ => encodedFields_of_fits _ (by decide)
theorem EncodedFields.blockDec : EncodedFields.Statement .blockDec := fun _ => encodedFields_of_fits _ (by decide)
theorem EncodedFields.encryptMsg : EncodedFields.Statement .encryptMsg := fun _ =>
  encodedFields_of_fits _ (by decide)
theorem EncodedFields.decryptMsg : EncodedFields.Statement .decryptMsg := fun _ =>
  encodedFields_of_fits _ (by decide)
theorem EncodedFields.pad : EncodedFields.Statement .pad := fun _ => encodedFields_of_fits _ (by decide)
theorem EncodedFields.unpad : EncodedFields.Statement .unpad := fun _ => encodedFields_of_fits _ (by decide)

end Sys2Proof.Laws
end

