-- ==== Sys2Proof/Tests/Slice0.lean ====
section
/-! SUPPORT. Tests of single operations against the values printed in spec/, and for every obligation with hypotheses a
theorem that shows a state and operands which meet them. -/

namespace Sys2Proof.Tests

open Sys2Proof.Machine

/-! ### Helpers -/

/-- Whether an outcome is a next state. -/
def isNext {σ φ ρ : Type} : Host.Outcome σ φ ρ → Bool
  | .next _ => true
  | .fault _ => false
  | .refused _ => false

/-- The next state of an outcome, or a stand-in. -/
def nextOf {σ φ ρ : Type} (d : σ) : Host.Outcome σ φ ρ → σ
  | .next t => t
  | .fault _ => d
  | .refused _ => d

theorem next_of_isNext {σ φ ρ : Type} {o : Host.Outcome σ φ ρ} (d : σ) (h : isNext o = true) :
    o = .next (nextOf d o) := by
  cases o with
  | next t => rfl
  | fault f => cases h
  | refused r => cases h

/-- The bytes of a text of hexadecimal numbers. -/
def bytesOf (l : List Nat) : List Byte := l.map (BitVec.ofNat 8)

/-- A state with small buffers, one round, block size 16, a zero key of 16 bytes and the given IN_BUF content. -/
def small (input : List Byte) (msgLen : Nat) : State :=
  { State.resetOf { bufBytes := 32, latency := 3 } with
    config := { rounds := 1, blockBytes := 16 }
    keyLen := 16
    ivLen  := 16
    msgLen := BitVec.ofNat 32 msgLen
    mem    := Memory.write [] inBase input }

/-- The small state with 32 zero bytes of input and MSG_LEN 3. -/
def tiny : State := small (List.replicate 32 0) 3

/-- STATUS after a command is accepted and completes. -/
def statusAfter (w : Word) (s : State) : Word := (nextOf s (runCommandWord w (s.accept w))).statusWord

/-- The state after a command completes. -/
def after (i : Instr) (s : State) : State := nextOf s (exec i s)

/-- The response to one transaction. -/
def respond (s : State) (we : Bool) (a : BitVec 16) (v : Word) : Response :=
  (s.hostAccess { we := we, addr := a, wdata := v }).response

/-! ### WellFormed: each check refuses an ill-formed command -/

theorem test_wf_setRounds_too_wide : Instr.wellFormed (.setRounds 0x1000000) = false := by decide
theorem test_wf_setBlock_too_wide : Instr.wellFormed (.setBlock 0x1000000) = false := by decide
theorem test_wf_largest_immediate : Instr.wellFormed (.setRounds 0xFFFFFF) = true := by decide

/-! ### Decoding: the word of every command, from the patterns of 30_encoding.md R71 and R73 -/

theorem test_decode_nop : decode 0b00000000000000000000000000000000#32 = .ok .nop := by decide
theorem test_decode_setRounds : decode 0b00000000000000000001010000000001#32 = .ok (.setRounds 20) := by decide
theorem test_decode_setBlock : decode 0b00000000000000000001000000000010#32 = .ok (.setBlock 16) := by decide
theorem test_decode_clearStatus : decode 0b00000000000000000000000000000011#32 = .ok .clearStatus := by decide
theorem test_decode_expandKey : decode 0b00000000000000000000000000010000#32 = .ok .expandKey := by decide
theorem test_decode_blockEnc : decode 0b00000000000000000000000000010001#32 = .ok .blockEnc := by decide
theorem test_decode_blockDec : decode 0b00000000000000000000000000010010#32 = .ok .blockDec := by decide
theorem test_decode_encryptMsg : decode 0b00000000000000000000000000100000#32 = .ok .encryptMsg := by decide
theorem test_decode_decryptMsg : decode 0b00000000000000000000000000100001#32 = .ok .decryptMsg := by decide
theorem test_decode_pad : decode 0b00000000000000000000000000110000#32 = .ok .pad := by decide
theorem test_decode_unpad : decode 0b00000000000000000000000000110001#32 = .ok .unpad := by decide
/-- V-CTL11, V-CTL12, V-CTL13. -/
theorem test_decode_illegal : decode 0xFFFFFFFF#32 = .error .unknownOpcode ∧
    decode 0x00000110#32 = .error .nonzeroArg ∧ decode 0x00000104#32 = .error .unknownOpcode := by decide
theorem test_decodeTableWord : decodeTableWord 32 0x00001401 = some (.setRounds 20) ∧
    decodeTableWord 32 0x00000110 = none := by decide

/-! ### Codes (10_state.md R23, R24) -/

theorem test_detail_codes : [DetailCode.none, .roundsRange, .blockSizeUnsupported, .notConfigured, .keyLen, .ivLen,
    .msgLenRange, .ctNotBlockMultiple, .padEmpty, .padZero, .padGtBlock, .padGtLen, .padMismatch, .unknownOpcode,
    .nonzeroArg].map (fun d => (d.code.toNat, d.result.code.toNat)) =
    [(0x00, 0), (0x01, 1), (0x02, 1), (0x03, 1), (0x10, 2), (0x11, 2), (0x12, 2), (0x20, 3), (0x30, 4), (0x31, 4),
     (0x32, 4), (0x33, 4), (0x34, 4), (0x40, 5), (0x41, 5)] := by decide

/-! ### Primitives: worked examples of 40_primitives.md R103 to R107 and V-PRIM2, V-PRIM3, V-PRIM7 -/

theorem test_rotl32 : rotl32 0x12345678 4 = 0x23456781 ∧ rotl32 0x80000001 33 = 0x00000003 ∧
    rotl32 1 0xFFFFFFFF = 0x80000000 ∧ rotl32 0x12345678 32 = 0x12345678 := by decide
theorem test_rotr32 : rotr32 0x12345678 4 = 0x81234567 ∧ rotr32 0xDEADBEEF 31 = 0xBD5B7DDF := by decide
theorem test_quadF : quadF 0x9E3779B9 = 0x9E89236C ∧ quadF 0x80000000 = 0x00000010 ∧
    quadF 0xDEADBEEF = 0x3120A624 := by decide
theorem test_word_codec : leWords (bytesOf [0x30, 0x31, 0x32, 0x33]) = [0x33323130] ∧
    leBytes [0x36A5C38F] = bytesOf [0x8f, 0xc3, 0xa5, 0x36] := by decide

/-! ### Key schedule (95_test_vectors.md) -/

/-- V-KS0. -/
theorem test_initial_subkeys : initialSubkeys 6 =
    [0xB7E15163, 0x5618CB1C, 0xF45044D5, 0x9287BE8E, 0x30BF3847, 0xCEF6B200] := by decide
/-- V-KS4: a 32-byte key, 24 iterations. -/
theorem test_expand_one_round : expand (List.replicate 32 0) 1 =
    [0xBE0EAD40, 0x4EDCDD2D, 0x378525C4, 0x83D43A72, 0xBA7CCFE7, 0xAA86F936] := by decide +kernel
/-- V-KS3 and V-KS8's STATUS: EXPAND_KEY with one round. -/
theorem test_expandKey : statusAfter 0x10 tiny = 0x00100000 ∧ (after .expandKey tiny).wordAt 0x1000 = 0xF71DCC57 ∧
    (after .expandKey tiny).wordAt 0x1014 = 0x5D270D8F ∧ (after .expandKey tiny).subkeyCount = 6 := by decide +kernel
/-- V-KS9: the whole KEY_LEN is compared. -/
theorem test_expandKey_keyLen : statusAfter 0x10 { tiny with keyLen := 0x00010010 } = 0x00101022 := by decide

/-! ### Block transform -/

/-- V-KV1, the published vector. -/
theorem test_known_vector : encBlock (expand (List.replicate 16 0) 20) 20 (List.replicate 16 0) =
    bytesOf [0x8f, 0xc3, 0xa5, 0x36, 0x56, 0xb1, 0xf7, 0x78, 0xc1, 0x29, 0xdf, 0x4e, 0x98, 0x48, 0xa4, 0x1e] := by
  decide +kernel
/-- V-BLK1. -/
theorem test_blockEnc : (after .blockEnc tiny).bytesAt 0x8000 16 = bytesOf [0xa6, 0xa9, 0x05, 0x6d, 0x41, 0xb0, 0xcc,
    0xd7, 0x59, 0xe8, 0x89, 0x76, 0x8e, 0xf4, 0xf3, 0x88] ∧ statusAfter 0x11 tiny = 0x00110000 := by decide +kernel
/-- V-BLK2. -/
theorem test_blockDec : (after .blockDec (small (List.replicate 32 0xff) 0)).bytesAt 0x8000 16 = bytesOf [0xb9, 0xba,
    0xa7, 0x98, 0x59, 0x56, 0xfa, 0x92, 0xfc, 0x70, 0xb1, 0xef, 0xa6, 0x17, 0x76, 0x89] := by decide +kernel
/-- V-BLK11: the error scrubs OUT_BUF. -/
theorem test_blockEnc_scrubs : statusAfter 0x11 { tiny with keyLen := 10, outLen := 7 } = 0x00111022 ∧
    (after .blockEnc { tiny with keyLen := 10, outLen := 7 }).outLen = 0 ∧
    (after .blockEnc { tiny with keyLen := 10 }).byteAt 0x801F = 0 := by decide +kernel

/-! ### PCBC -/

/-- "0123456789ABCDEF", "ABCDEFGHIJKLMNOP" and 20 rounds in the key, IV and CONFIG registers (program P1). -/
def p1 (input : List Byte) (msgLen : Nat) : State :=
  { small input msgLen with
    config := { rounds := 20, blockBytes := 16 }
    key := ⟨#[0x33323130, 0x37363534, 0x42413938, 0x46454443, 0, 0, 0, 0], rfl⟩
    iv := ⟨#[0x44434241, 0x48474645, 0x4C4B4A49, 0x504F4E4D], rfl⟩ }

/-- V-PCBC1, "HelloWorld". -/
theorem test_encryptMsg : (after .encryptMsg (p1 (bytesOf [0x48, 0x65, 0x6c, 0x6c, 0x6f, 0x57, 0x6f, 0x72, 0x6c, 0x64])
    10)).bytesAt 0x8000 16 = bytesOf [0x6a, 0x96, 0xad, 0x98, 0xf5, 0x22, 0x9d, 0x4c, 0x4a, 0x1d, 0x20, 0x59, 0x50, 0x80,
    0x11, 0x1c] := by decide +kernel
/-- V-PCBC15, a corrupted last byte: PADDING_ERROR after the key schedule has run (V-ERR8). -/
theorem test_decryptMsg_padding : statusAfter 0x21 (p1 (bytesOf [0x6a, 0x96, 0xad, 0x98, 0xf5, 0x22, 0x9d, 0x4c, 0x4a,
    0x1d, 0x20, 0x59, 0x50, 0x80, 0x11, 0x1d]) 16) = 0x00213242 := by decide +kernel
/-- V-ERR5's boundary at BUF_BYTES 32, and V-ERR6. -/
theorem test_message_checks : statusAfter 0x20 { tiny with msgLen := 32 } = 0x00201222 ∧
    statusAfter 0x21 { tiny with msgLen := 33 } = 0x00211222 ∧ statusAfter 0x21 { tiny with msgLen := 31 } = 0x00212032 ∧
    statusAfter 0x20 { tiny with ivLen := 15, keyLen := 10 } = 0x00201022 := by decide +kernel

/-! ### PKCS7 -/

/-- V-PAD4. -/
theorem test_pad : padBytes 16 (bytesOf [0x48, 0x65, 0x6c, 0x6c, 0x6f, 0x57, 0x6f, 0x72, 0x6c, 0x64]) = bytesOf [0x48,
    0x65, 0x6c, 0x6c, 0x6f, 0x57, 0x6f, 0x72, 0x6c, 0x64, 6, 6, 6, 6, 6, 6] := by decide
/-- V-PAD15 and the top of the buffer: MSG_LEN = BUF_BYTES - 1. -/
theorem test_pad_command : statusAfter 0x30 { tiny with config := { rounds := 0, blockBytes := 16 } } = 0x00300000 ∧
    (after .pad { tiny with msgLen := 31 }).outLen = 32 ∧ (after .pad { tiny with msgLen := 31 }).byteAt 0x801F = 1 ∧
    statusAfter 0x30 { tiny with config := { rounds := 1, blockBytes := 0 } } = 0x00300312 := by decide +kernel
/-- V-PAD9, V-PAD10, V-PAD11, V-PAD13. -/
theorem test_unpad_errors : statusAfter 0x31 (small (List.replicate 13 0x41 ++ [2, 3, 3]) 16) = 0x00313442 ∧
    statusAfter 0x31 (small [5, 5, 5] 3) = 0x00313342 ∧ statusAfter 0x31 (small [] 0) = 0x00313042 ∧
    statusAfter 0x31 (small [0xc8, 0xc8, 0xc8] 3) = 0x00313242 := by decide +kernel
/-- V-PAD6, V-PAD12. -/
theorem test_unpad : (after .unpad (small (List.replicate 13 0x41 ++ [3, 3, 3]) 16)).outLen = 13 ∧
    (after .unpad (small (List.replicate 13 0x41 ++ [3, 3, 3]) 16)).wordAt 0x800C = 0x03030341 ∧
    (after .unpad (small (List.replicate 16 0x10) 16)).outLen = 0 := by decide +kernel

/-! ### Control commands, illegal words, reset -/

/-- V-CTL1 to V-CTL4. -/
theorem test_setRounds : statusAfter 0x00001401 State.reset = 0x00010000 ∧
    statusAfter 0x00010001 State.reset = 0x00010112 ∧ statusAfter 0x00000001 State.reset = 0x00010112 ∧
    (after (.setRounds 255) State.reset).configWord = 0x000000FF := by decide
/-- V-CTL5 to V-CTL7. -/
theorem test_setBlock : statusAfter 0x00001002 State.reset = 0x00020000 ∧
    statusAfter 0x00002002 State.reset = 0x00020212 ∧ (after (.setBlock 16) State.reset).configWord = 0x00001000 := by
  decide
/-- V-CTL9, V-CTL15. -/
theorem test_sticky : statusAfter 0x00000003 (nextOf tiny (runCommandWord 0xFF (tiny.accept 0xFF))) = 0x00030000 ∧
    statusAfter 0x00000000 (nextOf tiny (runCommandWord 0xFF (tiny.accept 0xFF))) = 0x00000002 := by decide
/-- V-CTL10, V-CTL12, V-CTL14. -/
theorem test_illegal : statusAfter 0x000000FF State.reset = 0x00FF4052 ∧ statusAfter 0x00000110 State.reset = 0x00104152 ∧
    statusAfter 0x00000100 State.reset = 0x00004152 := by decide
/-- V-RST2, V-ERR1. -/
theorem test_unconfigured : statusAfter 0x10 State.reset = 0x00100312 ∧
    statusAfter 0x20 (State.resetOf { bufBytes := 32, latency := 1 }) = 0x00200312 := by decide
/-- The host's placement of a word: the very next step runs it. -/
theorem test_placed_word : (nextOf State.reset (step (State.reset.withFetchWord 32 0x00001401))).configWord = 20 := by
  decide

/-! ### The bus -/

/-- V-BUS1, V-BUS2, V-BUS4, V-BUS6, V-BUS9 at their boundaries. -/
theorem test_bus_errors : respond tiny false 0x0002 0 = .error ∧ respond tiny true 0x0004 0 = .error ∧
    respond tiny false 0x0050 0 = .error ∧ respond tiny false 0x1808 0 = .error ∧ respond tiny true 0x0008 0 = .error ∧
    respond tiny false 0x4020 0 = .error ∧ respond tiny true 0x8000 0 = .error ∧ respond tiny false 0x8020 0 = .error := by
  decide
/-- V-BUS8; the last words of IN_BUF and of IV. -/
theorem test_bus_reads : respond tiny false 0x0000 0 = .read 0 ∧ respond tiny false 0x401C 0 = .read 0 ∧
    respond (p1 [] 0) false 0x004C 0 = .read 0x504F4E4D ∧ respond tiny false 0x0008 0 = .read 0x00001001 := by decide
/-- V-BUS10, V-BUS12: a running ENCRYPT_MSG. -/
theorem test_bus_busy : respond (tiny.accept 0x20) false 0x0004 0 = .read 0x00200001 ∧
    ((tiny.accept 0x20).hostAccess { we := true, addr := 0x0014, wdata := 5 }).msgLen = 3 ∧
    ((tiny.accept 0x20).hostAccess { we := true, addr := 0x0000, wdata := 3 }).statusWord = 0x00200005 := by decide

/-- A read whose bus_wdata changes before the ack breaks the protocol (20_memory.md R50); one that holds it does not. -/
theorem test_bus_stable :
    isNext (step { tiny with
      pending := some { we := false, addr := 0x0004, wdata := 5 }
      inputs := [{ rstN := true, req := true, we := false, addr := 0x0004, wdata := 6 }] }) = false ∧
    isNext (step { tiny with
      pending := some { we := false, addr := 0x0004, wdata := 5 }
      inputs := [{ rstN := true, req := true, we := false, addr := 0x0004, wdata := 5 }] }) = true := by decide

/-! ### Host programs (30_encoding.md R78, program P1) -/

/-- `ldin "HelloWorld"`. -/
theorem test_ldin : (Pseudo.ldin (bytesOf [0x48, 0x65, 0x6c, 0x6c, 0x6f, 0x57, 0x6f, 0x72, 0x6c, 0x64])).statements =
    [.wr 0x4000 0x6C6C6548, .wr 0x4004 0x726F576F, .wr 0x4008 0x0000646C, .wr 0x0014 10] := by decide
/-- `cmd SET_ROUNDS, 20` is `wr CMD, 0x00001401`. -/
theorem test_cmd : (Pseudo.cmd (.setRounds 20)).statements = [.wr 0x0000 0x00001401] := by decide

/-- The run of a host program from reset, where a command stays busy for one cycle; or a stand-in. -/
def runOf (ps : List Pseudo) : Run := nextOf (Run.start State.reset) ((Run.start State.reset).program ps)

/-- R259, R260: after `cmd NOP` a read of KEY0 ends neither the command nor the run; a read of STATUS does, and the run's
observation is then what its reads returned. -/
theorem test_run_end : (runOf [.cmd .nop, .stmt (.rd 0x0020)]).isOver = false ∧
    (runOf [.cmd .nop, .stmt (.rd 0x0020)]).observation = none ∧ (runOf [.cmd .nop, .wait]).isOver = true ∧
    (runOf [.cmd (.setRounds 0), .wait, .stmt (.rd 0x0020)]).isOver = true ∧
    (runOf [.cmd (.setRounds 0), .wait]).observation.map (fun o => o.1) = some [0x00010112] := by decide +kernel
/-- R259: once another CMD write has been accepted, a read of STATUS does not end the earlier command. -/
theorem test_run_unseen_end : (runOf [.cmd .nop, .stmt (.rd 0x0020), .cmd .pad, .wait]).isOver = false ∧
    (runOf [.cmd .nop, .wait, .cmd .pad, .wait]).issued = [⟨0x30, true⟩, ⟨0x00, true⟩] := by decide +kernel

/-! ### Witnesses: the hypotheses of every obligation can be met -/

/-- Reset asserted, with a request on the pins. -/
def resetPins : Pins := { rstN := false, req := true, we := true, addr := 0, wdata := 3 }

/-- A write of a word to CMD on the pins. -/
def cmdPins (w : Word) : Pins := { rstN := true, req := true, we := true, addr := 0, wdata := w }

/-- `tiny` with a command word at its completion edge. -/
def completing (w : Word) : State := tiny.loadCommand w

/-- `tiny` with a word accepted, one edge left before the completion edge, and bus traffic. -/
def runningTraffic : State :=
  { tiny with
    status := tiny.status.accepted 0x10
    seq := .running 0x10 1
    inputs := [cmdPins 3, cmdPins 3] }

theorem tiny_inv : tiny.Inv :=
  ⟨by decide, by decide, by decide, by decide, .inl rfl, by decide, by decide, by decide, by
    intro w n h
    cases h⟩

theorem witness_ResetSatisfiesInvariant : ({ bufBytes := 16384, latency := 1 } : Params).Legal ∧
    ({ bufBytes := 32, latency := 9 } : Params).Legal := by decide
theorem witness_StepKeepsInvariant : ∃ s t : State, s.Inv ∧ step s = .next t :=
  ⟨tiny, _, tiny_inv, next_of_isNext tiny (by decide)⟩
theorem witness_ResetEdge : ({ tiny with inputs := [resetPins] }).inputs = [resetPins] ∧ resetPins.rstN = false := by
  decide
theorem witness_DecodeEncodeRoundTrip : Instr.wellFormed (.setBlock 0xFFFFFF) = true ∧
    Instr.wellFormed .unpad = true := by decide
theorem witness_EncodeDecodeRoundTrip : decode 0x000000FF01 = .ok (.setRounds 255) := by decide
theorem witness_ImmediateIsTheUpperBits : (0 : Nat) < 2 ^ 24 ∧ 0xFFFFFF < 2 ^ 24 := by decide
theorem witness_StepRunsDecodedCommand : (completing 0x10).seq = .running 0x10 0 ∧ decode 0x10 = .ok .expandKey ∧
    (completing 0x10).pinsNow.rstN = true ∧ (completing 0x10).inputs = [] ∧ (completing 0x10).pending = none ∧
    ∃ s', busEdge (completing 0x10).pinsNow (completing 0x10).takePins = .ok s' :=
  ⟨by decide, by decide, by decide, by decide, by decide, _, rfl⟩
theorem witness_PlacedWordRunsNext : Instr.wellFormed (.setRounds 0xFFFFFF) = true := by decide
theorem witness_IllegalWordWritesStatusOnly : decode 0x04 = .error .unknownOpcode ∧
    decode 0xFFFFFF31 = .error .nonzeroArg := by decide
theorem witness_AcceptanceWrites : 1 ≤ tiny.params.latency ∧ tiny.busy = false := by decide
theorem witness_CommandIsOneTransition : ∃ t, runningTraffic.seq = .running 0x10 1 ∧
    (∀ p ∈ runningTraffic.inputs.take 2, p.rstN = true) ∧
    Host.Core.run Sys2Proof.core 2 runningTraffic = .next t ∧ t.status.wrIgnored = true :=
  ⟨_, by decide, by decide, next_of_isNext runningTraffic (by decide +kernel), by decide +kernel⟩
theorem witness_CommandCompletesWithinLatency : 1 ≤ runningTraffic.params.latency ∧
    LawfulPins runningTraffic.pending runningTraffic.inputs ∧ ∀ p ∈ runningTraffic.inputs, p.rstN = true :=
  ⟨by decide, by simp [runningTraffic, tiny, small, State.resetOf, LawfulPins, Pins.request, Pins.holds, cmdPins],
    by decide⟩
theorem witness_BusHandshake : (cmdPins 3).rstN = true ∧ (cmdPins 3).req = true ∧ runningTraffic.pending = none ∧
    runningTraffic.inputs = [cmdPins 3, cmdPins 3] := by decide
theorem witness_OnlyProtocolViolationStops : ∃ s : State, s.pinsNow.rstN = true ∧ ∃ q, s.pending = some q ∧
    s.pinsNow.req = false :=
  ⟨{ tiny with pending := some { we := true, addr := 0, wdata := 3 } }, by decide, _, rfl, by decide⟩
theorem witness_LawfulHostNeverStops : LawfulPins runningTraffic.pending runningTraffic.inputs := by
  simp [runningTraffic, tiny, small, State.resetOf, LawfulPins, Pins.request, Pins.holds, cmdPins]
theorem witness_BusErrorsHaveNoEffect : tiny.params.Legal ∧ respond tiny false 0x004C 0 ≠ .error ∧
    respond tiny false 0x0050 0 = .error ∧ respond tiny false 0x1804 0 ≠ .error ∧ respond tiny true 0x1804 0 = .error ∧
    respond tiny true 0x401C 0 = .written := by decide
theorem witness_AccessWhileBusy : ∃ s : State, s.Inv ∧ s.seq = .running 0x10 1 ∧
    respond s true 0x4000 7 ≠ .error ∧ respond s false 0x0004 0 ≠ .error ∧ respond s false 0x1804 0 ≠ .error :=
  ⟨runningTraffic, ⟨by decide, by decide, by decide, by decide, .inl rfl, by decide, by decide, by decide, by
    intro w n h
    cases h
    exact ⟨by decide, by decide, by decide⟩⟩, by decide, by decide, by decide, by decide⟩
theorem witness_ReadReturnsLastWrite : tiny.params.Legal ∧ tiny.busy = false ∧ respond tiny true 0x003C 7 = .written ∧
    respond tiny true 0x401C 7 = .written := by decide
theorem witness_ByteLanesAreLittleEndian : tiny.params.Legal ∧ tiny.busy = false ∧ 4 * 7 < tiny.params.bufBytes ∧
    (31 : Fin 32).val < ({ tiny with keyLen := 32 }).keyLen.toNat := by decide
theorem witness_ReadsHaveNoSideEffect : tiny.busy = false := by decide
theorem witness_IllegalWordsAreTheReservedOnes : decode 0x04 = .error .unknownOpcode ∧
    decode 0xFFFFFF32 = .error .unknownOpcode ∧ decode 0x00000131 = .error .nonzeroArg := by decide
theorem witness_SetRoundsWritesRounds : 0xFFFFFF < 2 ^ 24 ∧ 1 ≤ 255 ∧ 255 ≤ 255 ∧ 255 < 256 := by decide
theorem witness_SetBlockAcceptsSixteenOnly : 0xFFFFFF < 2 ^ 24 ∧ 15 ≠ 16 := by decide
theorem witness_WordCodecLaws : (bytesOf [1, 2, 3, 4]).length % 4 = 0 ∧ 0 < [5#32].length ∧ 3 < 4 := by decide
theorem witness_BlockXorLaws : zero16.length = (List.replicate 16 9#8).length ∧ zero16.length % 4 = 0 := by decide
theorem witness_InitialSubkeyTable : 0 < 514 ∧ 1 ≤ 513 ∧ 513 < 514 := by decide
theorem witness_KeyScheduleLoop : 0 < 6 ∧ 0 < 8 ∧ (List.replicate 32 0#8).length = 4 * 8 := by decide
theorem witness_ExpandKeyCommand : tiny.CipherConfigured ∧ tiny.KeyLenLegal ∧ ¬ State.reset.CipherConfigured ∧
    ¬ ({ tiny with keyLen := 33 }).KeyLenLegal := by decide
theorem witness_BlockTransformInverse : 1 ≤ 255 ∧ (List.replicate 24 0#8).length = 24 ∧
    (List.replicate 16 0#8).length = 16 := by decide
theorem witness_BlockEncCommand : tiny.CipherConfigured ∧ ({ tiny with keyLen := 32 }).KeyLenLegal ∧
    ¬ ({ tiny with keyLen := 0 }).KeyLenLegal := by decide
theorem witness_BlockDecCommand : tiny.CipherConfigured ∧ ({ tiny with keyLen := 24 }).KeyLenLegal ∧
    ¬ ({ tiny with config := { rounds := 1, blockBytes := 0 } }).CipherConfigured := by decide
theorem witness_PcbcEncryptionRecurrence : (List.replicate 32 0#8).length % 16 = 0 ∧ zero16.length = 16 ∧
    0 < (List.replicate 32 0#8).length ∧ 1 < (List.replicate 32 0#8).length / 16 := by decide
theorem witness_PcbcDecryptionInverts : (List.replicate 32 5#8).length % 16 = 0 ∧ zero16.length = 16 := by decide
theorem witness_PcbcErrorPropagation : ∃ ct ct' : List Byte, ct.length % 16 = 0 ∧ ct'.length = ct.length ∧
    0 < ct.length / 16 ∧ blockAt 0 ct' ≠ blockAt 0 ct ∧ (∀ j, j ≠ 0 → blockAt j ct' = blockAt j ct) ∧
    1 < ct.length / 16 := by
  refine ⟨List.replicate 32 0, 1 :: List.replicate 31 0, by decide, by decide, by decide, by decide, ?_, by decide⟩
  intro j hj
  obtain ⟨j, rfl⟩ := Nat.exists_eq_succ_of_ne_zero hj
  simp [blockAt, Nat.mul_succ]
theorem witness_EncBlockRounds : zero16.length = 16 ∧ 1 ≤ 1 ∧ 1 ≤ 255 := by decide
theorem witness_DecBlockRounds : zero16.length = 16 ∧ 1 ≤ 255 ∧ 255 ≤ 255 := by decide
theorem witness_AddressMap : tiny.params.Legal ∧ tiny.busy = false ∧ 513 < 514 ∧ 4 * 7 < tiny.params.bufBytes := by decide
theorem witness_CommandEndsUnderWait : 1 ≤ (Run.start tiny).state.params.latency ∧ (Run.start tiny).state.busy = false ∧
    (Run.start tiny).state.pending = none ∧ (Run.start tiny).isOver = true ∧ (0x0004 : BitVec 16) ∉ [0x0000, 0x0020] := by
  decide
theorem witness_EncryptMsgCommand : tiny.params.Legal ∧ tiny.config.blockBytes = 16 ∧ tiny.CipherConfigured ∧
    tiny.KeyLenLegal ∧ tiny.ivLen = 16 ∧ ({ tiny with msgLen := 31 }).msgLen.toNat < tiny.params.bufBytes ∧
    tiny.params.bufBytes ≤ ({ tiny with msgLen := 32 }).msgLen.toNat := by decide
/-- Every path of DECRYPT_MSG past its checks: a good trailer, and an empty message. -/
theorem witness_DecryptMsgCommand : tiny.params.Legal ∧ tiny.CipherConfigured ∧ tiny.KeyLenLegal ∧ tiny.ivLen = 16 ∧
    padCount 16 (pcbcDec (expand tiny.keyBytes 1) 1 (pcbcEnc (expand tiny.keyBytes 1) 1 (padBytes 16 [7]) tiny.ivBytes)
      tiny.ivBytes) = .ok 15 ∧
    padCount 16 (pcbcDec (expand tiny.keyBytes 1) 1 [] tiny.ivBytes) = .error .padEmpty ∧
    ({ tiny with msgLen := 32 }).msgLen.toNat ≤ tiny.params.bufBytes ∧
    ({ tiny with msgLen := 31 }).msgLen.toNat % 16 ≠ 0 := by decide +kernel

/-- `tiny` after ENCRYPT_MSG, with the output copied to IN_BUF and its length to MSG_LEN. -/
def copiedBack : State :=
  { tiny with
    msgLen := (after .encryptMsg tiny).outLen
    mem := Memory.write [] inBase ((after .encryptMsg tiny).bytesAt outBase 16) }

theorem witness_MessageRoundTrip : ∃ s t u : State, s.params.Legal ∧ s.config.rounds ≠ 0 ∧ s.config.blockBytes = 16 ∧
    s.KeyLenLegal ∧ s.ivLen = 16 ∧ s.msgLen.toNat < s.params.bufBytes ∧ exec .encryptMsg s = .next t ∧
    u.params = s.params ∧ u.config = s.config ∧ u.key = s.key ∧ u.keyLen = s.keyLen ∧ u.iv = s.iv ∧ u.ivLen = s.ivLen ∧
    u.msgLen = t.outLen ∧ ∀ o, o < t.outLen.toNat → u.byteAt (inBase + o) = t.byteAt (outBase + o) :=
  ⟨tiny, after .encryptMsg tiny, copiedBack, by decide, by decide, by decide, by decide, by decide, by decide,
    next_of_isNext tiny (by decide), rfl, rfl, rfl, rfl, rfl, rfl, rfl, by decide +kernel⟩
theorem witness_PadCountChecks : padCount 16 (List.replicate 16 16) = .ok 16 ∧ padCount 16 [1] = .ok 1 ∧
    padCount 16 [] = .error .padEmpty ∧ padCount 16 [1, 0] = .error .padZero ∧ padCount 16 [17] = .error .padGtBlock ∧
    padCount 16 [2] = .error .padGtLen ∧ padCount 16 [1, 2] = .error .padMismatch := by decide
theorem witness_PadCommand : tiny.params.Legal ∧ tiny.config.blockBytes = 16 ∧
    ({ tiny with msgLen := 31 }).msgLen.toNat < tiny.params.bufBytes ∧ State.reset.config.blockBytes = 0 ∧
    tiny.params.bufBytes ≤ ({ tiny with msgLen := 32 }).msgLen.toNat := by decide
theorem witness_UnpadCommand : padCount 16 (small [65, 2, 2] 3).message = .ok 2 ∧
    padCount 16 tiny.message = .error .padZero ∧ ({ tiny with msgLen := 32 }).msgLen.toNat ≤ tiny.params.bufBytes ∧
    tiny.params.bufBytes < ({ tiny with msgLen := 33 }).msgLen.toNat := by decide
theorem witness_ScrubOnEveryError : decode 0x04 = .error .unknownOpcode ∧ ∃ s t t' : State, exec .blockEnc s = .next t ∧ t.status.result ≠ .ok ∧
    exec .expandKey s = .next t' ∧ t'.status.result ≠ .ok :=
  ⟨by decide, State.reset, _, _, next_of_isNext State.reset (by decide), by decide, next_of_isNext State.reset (by decide),
    by decide⟩
theorem witness_OnlySettersChangeConfig : ∃ t, step (completing 0x0501) = .next t ∧
    t.config ≠ (completing 0x0501).config :=
  ⟨_, next_of_isNext tiny (by decide), by decide⟩
theorem witness_OnlyKeyScheduleChangesSubkeys : ∃ t, step (completing 0x10) = .next t ∧
    t.subkeyCount ≠ (completing 0x10).subkeyCount :=
  ⟨_, next_of_isNext tiny (by decide), by decide +kernel⟩
theorem witness_OnlyHostChangesInBuf : ∃ s t : State, s.params.Legal ∧ step s = .next t ∧ 31 < s.params.bufBytes ∧
    t.byteAt (inBase + 31) ≠ s.byteAt (inBase + 31) :=
  ⟨{ tiny with inputs := [{ cmdPins 0x01000000 with addr := 0x401C }]
               pending := some { we := true, addr := 0x401C, wdata := 0x01000000 } },
    _, by decide, next_of_isNext tiny (by decide), by decide, by decide⟩
theorem witness_OnlyCommandsChangeOutBuf : ∃ s t : State, s.params.Legal ∧ step s = .next t ∧ t.outLen ≠ s.outLen :=
  ⟨completing 0x30, _, by decide, next_of_isNext tiny (by decide), by decide⟩
theorem witness_StickyBitsStay : ∃ s t : State, step s = .next t ∧ s.status.stickyErr = true ∧
    t.status.stickyErr = false :=
  ⟨{ completing 0x03 with status := { tiny.status with stickyErr := true } }, _, next_of_isNext tiny (by decide),
    by decide, by decide⟩
theorem witness_CommandsKeepHostRegisters : ∃ t, exec .encryptMsg tiny = .next t ∧ inBase ≤ 0x4000 ∧ 0x7FFF < outBase :=
  ⟨_, next_of_isNext tiny (by decide), by decide, by decide⟩

end Sys2Proof.Tests
end

/-! ### What a command can do, by the shape of its completion -/

namespace Sys2Proof.Machine

/-- The commands that run the key schedule when their checks pass (41_key_schedule.md R125). -/
abbrev keyScheduleCommands : List Instr := [.expandKey, .blockEnc, .blockDec, .encryptMsg, .decryptMsg]

/-- The commands that write OUT_BUF and OUT_LEN (60_exceptions.md R225). -/
abbrev outputCommands : List Instr := [.blockEnc, .blockDec, .encryptMsg, .decryptMsg, .pad, .unpad]

/-- The single-block commands (42_block_transform.md R144, R145). -/
abbrev blockCommands : List Instr := [.blockEnc, .blockDec]

/-- The message commands (43_pcbc.md R164, R165). -/
abbrev messageCommands : List Instr := [.encryptMsg, .decryptMsg]

/-- The padder's commands (44_pkcs7.md R182, R183). -/
abbrev paddingCommands : List Instr := [.pad, .unpad]

theorem mem_keyScheduleCommands {i : Instr} (h : i ∈ blockCommands ∨ i ∈ messageCommands) :
    i ∈ keyScheduleCommands := by
  simp at h ⊢
  tauto

theorem mem_outputCommands {i : Instr} (h : i ∈ blockCommands ∨ i ∈ messageCommands ∨ i ∈ paddingCommands) :
    i ∈ outputCommands := by
  simp at h ⊢
  tauto

/-- In a state with legal parameters and BLOCK_BYTES 0 or 16, an output of `len` bytes with OUT_LEN `n` fits OUT_BUF. -/
def State.Fits (s : State) (len n : Nat) : Prop :=
  s.params.Legal → s.config.blockBytes = 0 ∨ s.config.blockBytes = 16 → len ≤ s.params.bufBytes ∧ n ≤ s.params.bufBytes

/-- The completions of a command in a state: each is a chain of the named updates. -/
inductive ExecCase (s : State) : Instr → State → Prop where
  | nop : ExecCase s .nop s.completeOk
  | roundsSet (imm : Nat) :
      ExecCase s (.setRounds imm) (State.completeOk { s with config := { s.config with rounds := BitVec.ofNat 8 imm } })
  | blockSet (imm : Nat) : imm = Config.blockBytes →
      ExecCase s (.setBlock imm) (State.completeOk { s with config := { s.config with blockBytes := BitVec.ofNat 8 imm } })
  | statusCleared :
      ExecCase s .clearStatus
        (State.completeOk { s with status := { s.status with stickyErr := false, wrIgnored := false } })
  | refused (i : Instr) (d : DetailCode) : i ≠ .clearStatus → ExecCase s i (s.raise d)
  | scrubbed (i : Instr) (d : DetailCode) : i ∈ outputCommands → ExecCase s i (s.raiseScrub d)
  | expanded : s.config.rounds ≠ 0 → ExecCase s .expandKey s.runKeySchedule.completeOk
  | blockDone (i : Instr) (w : Work) : i ∈ blockCommands → s.config.rounds ≠ 0 →
      ExecCase s i ((s.runKeySchedule.putWork w).putOut (storeBlock w) 16).completeOk
  | messageDone (i : Instr) (x : Chaining) (n : Nat) : i ∈ messageCommands → s.config.rounds ≠ 0 →
      s.Fits x.out.length n → ExecCase s i ((s.runKeySchedule.putChaining x).putOut x.out n).completeOk
  | paddingRefused (x : Chaining) (d : DetailCode) : s.config.rounds ≠ 0 →
      ExecCase s .decryptMsg ((s.runKeySchedule.putChaining x).raiseScrub d)
  | paddedOrStripped (i : Instr) (bs : List Byte) (n : Nat) : i ∈ paddingCommands → s.Fits bs.length n →
      ExecCase s i (s.putOut bs n).completeOk

/-! #### Passing checks -/

theorem State.configured_of_checkCipherConfig {s : State} (h : s.checkCipherConfig = none) : s.CipherConfigured := by
  unfold State.checkCipherConfig at h
  split at h
  · cases h
  · rename_i hc
    exact not_or.1 hc

theorem State.rounds_ne_zero_of_cipherChecks {s : State} (h : s.cipherChecks = none) : s.config.rounds ≠ 0 :=
  (State.configured_of_checkCipherConfig ((firstFailure_eq_none _).1 h _ (by simp))).1

/-- Checks that room for the padding passed: the message is shorter than OUT_BUF. -/
theorem State.lt_of_checkRoomToPad {s : State} (h : s.checkRoomToPad = none) : s.msgLen.toNat < s.params.bufBytes := by
  unfold State.checkRoomToPad at h
  split at h
  · cases h
  · omega

theorem State.le_of_checkFits {s : State} (h : s.checkFits = none) : s.msgLen.toNat ≤ s.params.bufBytes := by
  unfold State.checkFits at h
  split at h
  · cases h
  · omega

/-! #### Lengths of the outputs -/

@[simp] theorem State.message_length (s : State) : s.message.length = s.msgLen.toNat :=
  s.bytesAt_length inBase s.msgLen.toNat

theorem padBytes_length (bs : Nat) (m : List Byte) : (padBytes bs m).length = m.length + (bs - m.length % bs) := by
  simp [padBytes, padLength]

/-- A padded message fits OUT_BUF when the message is shorter than OUT_BUF. -/
theorem State.padBytes_fits {s : State} (h : s.msgLen.toNat < s.params.bufBytes) (hb : s.config.blockBytes ≠ 0) :
    s.Fits (padBytes s.blockSize s.message).length (padBytes s.blockSize s.message).length := by
  intro ⟨hmod, _, _, _⟩ hbb
  have hbs : s.blockSize = 16 := by rw [State.blockSize, hbb.resolve_left hb]; rfl
  rw [padBytes_length, hbs, State.message_length]
  omega

/-- A chaining loop whose step puts out at most 16 bytes puts out at most 16 bytes per block. -/
theorem foldl_out_length_le {f : Chaining → List Byte → Chaining}
    (hf : ∀ x b, (f x b).out.length ≤ x.out.length + 16) (bs : List (List Byte)) (x : Chaining) :
    (bs.foldl f x).out.length ≤ x.out.length + 16 * bs.length := by
  induction bs generalizing x with
  | nil => simp
  | cons b bs ih =>
    have := ih (f x b)
    have := hf x b
    simp only [List.foldl_cons, List.length_cons]
    omega

@[simp] theorem blocksOf_length (m : Nat) (x : List Byte) : (blocksOf m x).length = m := by simp [blocksOf]

theorem pcbcEncRun_out_length_le (ks : List Word) (r : Nat) (pp iv : List Byte) (w : Work) :
    (pcbcEncRun ks r pp iv w).out.length ≤ pp.length := by
  have hstep : ∀ x b, (pcbcEncStep ks r x b).out.length ≤ x.out.length + 16 := fun x b => by simp [pcbcEncStep]
  have := foldl_out_length_le hstep (blocksOf (pp.length / 16) pp) (chainStart iv w)
  rw [blocksOf_length] at this
  simp only [chainStart, List.length_nil] at this
  unfold pcbcEncRun chainStart
  omega

theorem pcbcDecRun_out_length_le (ks : List Word) (r : Nat) (ct iv : List Byte) (w : Work) :
    (pcbcDecRun ks r ct iv w).out.length ≤ ct.length := by
  have hstep : ∀ x b, (pcbcDecStep ks r x b).out.length ≤ x.out.length + 16 := fun x b => by
    simp [pcbcDecStep, xorBytes_length]
  have := foldl_out_length_le hstep (blocksOf (ct.length / 16) ct) (chainStart iv w)
  rw [blocksOf_length] at this
  simp only [chainStart, List.length_nil] at this
  unfold pcbcDecRun chainStart
  omega

/-! #### The cases of each command -/

theorem execSetRounds_case (imm : Nat) (s t : State) (h : execSetRounds imm s = .next t) :
    ExecCase s (.setRounds imm) t := by
  unfold execSetRounds at h
  split at h
  · cases h; exact .refused _ _ (by simp)
  · cases h; exact .roundsSet imm

theorem execSetBlock_case (imm : Nat) (s t : State) (h : execSetBlock imm s = .next t) :
    ExecCase s (.setBlock imm) t := by
  unfold execSetBlock at h
  split at h
  · cases h; exact .blockSet imm ‹_›
  · cases h; exact .refused _ _ (by simp)

theorem execExpandKey_case (s t : State) (h : execExpandKey s = .next t) : ExecCase s .expandKey t := by
  unfold execExpandKey at h
  split at h
  · cases h; exact .refused _ _ (by simp)
  · cases h; exact .expanded (State.rounds_ne_zero_of_cipherChecks ‹_›)

theorem blockCommand_case (f : List Word → Nat → List Byte → Work) (i : Instr) (hi : i ∈ blockCommands)
    (s t : State) (h : blockCommand f s = .next t) : ExecCase s i t := by
  unfold blockCommand at h
  split at h
  · cases h; exact .scrubbed _ _ (mem_outputCommands (.inl hi))
  · cases h; exact .blockDone _ _ hi (State.rounds_ne_zero_of_cipherChecks ‹_›)

theorem execEncryptMsg_case (s t : State) (h : execEncryptMsg s = .next t) : ExecCase s .encryptMsg t := by
  unfold execEncryptMsg at h
  split at h
  · cases h; exact .scrubbed _ _ (by simp)
  · rename_i hc
    have hpass := (firstFailure_eq_none _).1 hc
    obtain ⟨hr, hb⟩ := State.configured_of_checkCipherConfig (hpass s.checkCipherConfig (by simp))
    have hlen := State.lt_of_checkRoomToPad (hpass s.checkRoomToPad (by simp))
    cases h
    refine .messageDone _ _ _ (by simp) hr fun hp hbb => ?_
    have hfit := (State.padBytes_fits hlen hb hp hbb).1
    exact and_self_iff.2 ((pcbcEncRun_out_length_le _ _ _ _ _).trans hfit)

theorem execDecryptMsg_case (s t : State) (h : execDecryptMsg s = .next t) : ExecCase s .decryptMsg t := by
  unfold execDecryptMsg at h
  split at h
  · cases h; exact .scrubbed _ _ (by simp)
  · rename_i hc
    have hpass := (firstFailure_eq_none _).1 hc
    have hr := (State.configured_of_checkCipherConfig (hpass s.checkCipherConfig (by simp))).1
    have hlen := State.le_of_checkFits (hpass s.checkFits (by simp))
    dsimp only at h
    split at h
    · cases h; exact .paddingRefused _ _ hr
    · cases h
      refine .messageDone _ _ _ (by simp) hr fun _ _ => ⟨?_, by omega⟩
      exact ((pcbcDecRun_out_length_le _ _ _ _ _).trans_eq s.message_length).trans hlen

theorem execPad_case (s t : State) (h : execPad s = .next t) : ExecCase s .pad t := by
  unfold execPad at h
  split at h
  · cases h; exact .scrubbed _ _ (by simp)
  · rename_i hc
    have hpass := (firstFailure_eq_none _).1 hc
    have hlen := State.lt_of_checkRoomToPad (hpass s.checkRoomToPad (by simp))
    have hb : s.config.blockBytes ≠ 0 := by simpa [State.checkBlockConfig] using hpass s.checkBlockConfig (by simp)
    cases h
    exact .paddedOrStripped _ _ _ (by simp) (State.padBytes_fits hlen hb)

theorem execUnpad_case (s t : State) (h : execUnpad s = .next t) : ExecCase s .unpad t := by
  unfold execUnpad at h
  split at h
  · cases h; exact .scrubbed _ _ (by simp)
  · rename_i hc
    have hlen := State.le_of_checkFits ((firstFailure_eq_none _).1 hc s.checkFits (by simp))
    split at h
    · cases h; exact .scrubbed _ _ (by simp)
    · cases h
      exact .paddedOrStripped _ _ _ (by simp) fun _ _ => by rw [State.message_length]; omega

/-- What a command does is one of those cases. -/
theorem exec_cases {i : Instr} {s t : State} (h : exec i s = .next t) : ExecCase s i t := by
  cases i with
  | nop => cases h; exact .nop
  | setRounds imm => exact execSetRounds_case imm s t h
  | setBlock imm => exact execSetBlock_case imm s t h
  | clearStatus => cases h; exact .statusCleared
  | expandKey => exact execExpandKey_case s t h
  | blockEnc => exact blockCommand_case encWork _ (by simp) s t h
  | blockDec => exact blockCommand_case decWork _ (by simp) s t h
  | encryptMsg => exact execEncryptMsg_case s t h
  | decryptMsg => exact execDecryptMsg_case s t h
  | pad => exact execPad_case s t h
  | unpad => exact execUnpad_case s t h

end Sys2Proof.Machine

/-! ### What an edge can do -/

namespace Sys2Proof.Machine

/-- A captured word that answers runs its command, or is illegal and raises. -/
theorem runCommandWord_cases {w : Word} {s t : State} (h : runCommandWord w s = .next t) :
    (∃ i, decode w = .ok i ∧ exec i s = .next t) ∨ ∃ e, t = s.raise (detailOf e) := by
  unfold runCommandWord at h
  split at h
  · exact .inl ⟨_, ‹_›, h⟩
  · cases h; exact .inr ⟨_, rfl⟩

/-- A step outside reset is the bus, and then: at most a new phase of the sequencer, an illegal word's error, or a
command. -/
theorem step_effect {s t : State} (h : step s = .next t) :
    s.pinsNow.rstN = false ∨ ∃ s', busEdge s.pinsNow s.takePins = .ok s' ∧
      ((∃ q, t = { s' with seq := q }) ∨ (∃ d, t = s'.raise d) ∨
       ∃ w i, s.seq = .running w 0 ∧ decode w = .ok i ∧ exec i s' = .next t) := by
  obtain ⟨hr, -⟩ | ⟨s', -, hbus, ⟨-, rfl⟩ | ⟨w, n, -, rfl⟩ | ⟨w, hseq, hrun⟩⟩ := step_cases h
  · exact .inl hr
  · exact .inr ⟨t, hbus, .inl ⟨t.seq, rfl⟩⟩
  · exact .inr ⟨s', hbus, .inl ⟨_, rfl⟩⟩
  · obtain ⟨i, hdec, hex⟩ | ⟨e, rfl⟩ := runCommandWord_cases hrun
    · exact .inr ⟨s', hbus, .inr (.inr ⟨w, i, hseq, hdec, hex⟩)⟩
    · exact .inr ⟨s', hbus, .inr (.inl ⟨_, rfl⟩)⟩

/-! #### What the bus leaves -/

/-- What no transaction touches. -/
structure KeptByBus (s t : State) : Prop where
  params      : t.params = s.params
  config      : t.config = s.config
  outLen      : t.outLen = s.outLen
  subkeyCount : t.subkeyCount = s.subkeyCount
  resets      : t.resets = s.resets
  stickyErr   : t.status.stickyErr = s.status.stickyErr
  wrIgnored   : s.status.wrIgnored = true → t.status.wrIgnored = true

theorem writeTarget_kept (s : State) (v : Word) (tg : Target) : KeptByBus s (s.writeTarget v tg) := by
  cases tg <;> exact ⟨rfl, rfl, rfl, rfl, rfl, rfl, id⟩

theorem AccessCase.kept {s t : State} {q : BusReq} (h : AccessCase s q t) : KeptByBus s t := by
  cases h with
  | error => exact ⟨rfl, rfl, rfl, rfl, rfl, rfl, id⟩
  | dropped => exact ⟨rfl, rfl, rfl, rfl, rfl, rfl, fun _ => rfl⟩
  | wrote tg => exact { writeTarget_kept s q.wdata tg with }
  | drew => exact ⟨rfl, rfl, rfl, rfl, rfl, rfl, id⟩
  | read tg => exact ⟨rfl, rfl, rfl, rfl, rfl, rfl, id⟩

theorem busEdge_kept {p : Pins} {s t : State} (h : busEdge p s = .ok t) : KeptByBus s t := by
  obtain ⟨-, rfl⟩ | ⟨q, -, -, rfl⟩ := busEdge_cases h
  · exact ⟨rfl, rfl, rfl, rfl, rfl, rfl, id⟩
  · exact { (hostAccess_cases { s with pending := none } q).kept with }

/-! #### The byte that a transaction writes -/

/-- A write of a place changes a byte of RAM only if the place is the word of IN_BUF that holds it. -/
theorem writeTarget_byteAt {s : State} {v : Word} {tg : Target} {a : Nat}
    (h : (s.writeTarget v tg).byteAt a ≠ s.byteAt a) : ∃ o, tg = .inBuf o ∧ inBase + o ≤ a ∧ a < inBase + o + 4 := by
  cases tg with
  | inBuf o =>
    refine ⟨o, rfl, ?_⟩
    by_contra hout
    exact h ((State.byteAt_of_write (s := s) (t := s.writeTarget v (.inBuf o)) rfl rfl a).trans (if_neg hout))
  | _ => exact absurd rfl h

/-- A transaction changes a byte of RAM only if it is a write, while IDLE, of the word of IN_BUF that holds it. -/
theorem AccessCase.byteAt {s t : State} {q : BusReq} {a : Nat} (hc : AccessCase s q t) (h : t.byteAt a ≠ s.byteAt a) :
    q.we = true ∧ s.busy = false ∧ q.addr.toNat = a - a % 4 ∧ inBase ≤ q.addr.toNat ∧
      q.addr.toNat < inBase + s.params.bufBytes := by
  cases hc with
  | wrote tg hwe hidle htg =>
    obtain ⟨o, rfl, hlo, hhi⟩ := writeTarget_byteAt h
    obtain ⟨halign, haddr, hrange⟩ := targetOf_spec htg
    simp only [Target.address, Target.InRange] at haddr hrange
    exact ⟨hwe, hidle, by omega, by omega, by omega⟩
  | _ => exact absurd rfl h

theorem busEdge_byteAt {p : Pins} {s t : State} {a : Nat} (hbus : busEdge p s = .ok t) (h : t.byteAt a ≠ s.byteAt a) :
    ∃ q, s.pending = some q ∧ q.we = true ∧ s.busy = false ∧ q.addr.toNat = a - a % 4 ∧ inBase ≤ q.addr.toNat ∧
      q.addr.toNat < inBase + s.params.bufBytes := by
  obtain ⟨-, rfl⟩ | ⟨q, hq, -, rfl⟩ := busEdge_cases hbus
  · exact absurd rfl h
  · exact ⟨q, hq, (hostAccess_cases { s with pending := none } q).byteAt h⟩

/-- Outside IN_BUF's window no transaction changes a byte of RAM. -/
theorem busEdge_byteAt_outside {p : Pins} {s t : State} {a : Nat} (hbus : busEdge p s = .ok t)
    (ha : a < inBase ∨ s.params.Legal ∧ outBase ≤ a) : t.byteAt a = s.byteAt a := by
  by_contra h
  obtain ⟨q, -, -, -, hword, hlo, hhi⟩ := busEdge_byteAt hbus h
  obtain ha | ⟨⟨-, -, hmax, -⟩, ha⟩ := ha
  · omega
  · unfold outBase at ha
    unfold inBase at hhi
    omega

/-! #### The bytes that a command writes -/

@[simp] theorem State.completeOk_byteAt (s : State) (a : Nat) : s.completeOk.byteAt a = s.byteAt a := rfl
@[simp] theorem State.raise_byteAt (s : State) (d : DetailCode) (a : Nat) : (s.raise d).byteAt a = s.byteAt a := rfl
@[simp] theorem State.putWork_byteAt (s : State) (w : Work) (a : Nat) : (s.putWork w).byteAt a = s.byteAt a := rfl
@[simp] theorem State.putChaining_byteAt (s : State) (x : Chaining) (a : Nat) :
    (s.putChaining x).byteAt a = s.byteAt a := rfl

theorem State.putOut_byteAt_below (s : State) (bs : List Byte) (n : Nat) {a : Nat} (h : a < outBase) :
    (s.putOut bs n).byteAt a = s.byteAt a :=
  (State.byteAt_of_write (t := s.putOut bs n) rfl rfl a).trans (if_neg fun hin => Nat.not_le.2 h hin.1)

theorem State.raiseScrub_byteAt_below (s : State) (d : DetailCode) {a : Nat} (h : a < outBase) :
    (s.raiseScrub d).byteAt a = s.byteAt a :=
  s.putOut_byteAt_below (List.replicate s.params.bufBytes 0) 0 h

/-! #### The length of the key schedule -/

@[simp] theorem arithmeticWords_length (x : Word) (n : Nat) : (arithmeticWords x n).length = n := by
  induction n generalizing x with
  | zero => rfl
  | succ n ih => simp [arithmeticWords, ih]

theorem foldl_mixStep_length (t c : Nat) (ks : List Nat) (m : Mixing) :
    (ks.foldl (mixStep t c) m).s.length = m.s.length := by
  induction ks generalizing m with
  | nil => rfl
  | cons k ks ih => rw [List.foldl_cons, ih]; simp [mixStep]

@[simp] theorem expand_length (key : List Byte) (r : Nat) : (expand key r).length = 2 * r + 4 := by
  simp only [expand, mixAll, foldl_mixStep_length, mixStart, initialSubkeys, arithmeticWords_length, subkeysFor]

@[simp] theorem State.subkeys_length (s : State) : s.subkeys.length = 2 * s.rounds + 4 := by
  simp [State.subkeys]

theorem State.rounds_le (s : State) : s.rounds ≤ Config.rMax := Nat.le_of_lt_succ s.config.rounds.isLt

/-- The key schedule writes inside the subkey RAM alone. -/
theorem State.runKeySchedule_byteAt_outside (s : State) {a : Nat} (h : ¬ inSubkeys Config.tMax a) :
    s.runKeySchedule.byteAt a = s.byteAt a := by
  refine (State.byteAt_of_write (t := s.runKeySchedule) s.runKeySchedule_mem rfl a).trans (if_neg fun hin => h ?_)
  have := s.rounds_le
  rw [leBytes_length, State.subkeys_length] at hin
  unfold Config.rMax at this
  unfold inSubkeys Config.tMax
  omega

/-- A command changes a byte of RAM only in S, if it runs the key schedule, or from OUT_BUF on, if it writes OUT_BUF. -/
theorem ExecCase.byteAt {i : Instr} {s t : State} {a : Nat} (hc : ExecCase s i t) (h : t.byteAt a ≠ s.byteAt a) :
    (i ∈ keyScheduleCommands ∧ inSubkeys Config.tMax a) ∨ (i ∈ outputCommands ∧ outBase ≤ a) := by
  by_contra hno
  obtain ⟨hS, hO⟩ := not_or.1 hno
  have hsched (hi : i ∈ keyScheduleCommands) : s.runKeySchedule.byteAt a = s.byteAt a :=
    s.runKeySchedule_byteAt_outside fun ha => hS ⟨hi, ha⟩
  have hlow (hi : i ∈ outputCommands) : a < outBase := Nat.lt_of_not_le fun ha => hO ⟨hi, ha⟩
  apply h
  cases hc with
  | nop | roundsSet | blockSet | statusCleared | refused => rfl
  | scrubbed _ d hi => exact s.raiseScrub_byteAt_below d (hlow hi)
  | expanded => exact hsched (by simp)
  | blockDone i w hi =>
    rw [State.completeOk_byteAt, State.putOut_byteAt_below _ _ _ (hlow (mem_outputCommands (.inl hi))),
      State.putWork_byteAt, hsched (mem_keyScheduleCommands (.inl hi))]
  | messageDone i x n hi =>
    rw [State.completeOk_byteAt, State.putOut_byteAt_below _ _ _ (hlow (mem_outputCommands (.inr (.inl hi)))),
      State.putChaining_byteAt, hsched (mem_keyScheduleCommands (.inr hi))]
  | paddingRefused x d =>
    rw [State.raiseScrub_byteAt_below _ _ (hlow (by simp)), State.putChaining_byteAt, hsched (by simp)]
  | paddedOrStripped i bs n hi =>
    rw [State.completeOk_byteAt, State.putOut_byteAt_below _ _ _ (hlow (mem_outputCommands (.inr (.inr hi))))]

end Sys2Proof.Machine

/-! ### The invariant, operation by operation -/

namespace Sys2Proof

/-- One block fits each buffer. -/
theorem Params.Legal.block_le {p : Params} (h : p.Legal) : 16 ≤ p.bufBytes := by
  obtain ⟨-, hmin, -, -⟩ := h
  omega

theorem Params.Legal.one_le_latency {p : Params} (h : p.Legal) : 1 ≤ p.latency := by
  obtain ⟨-, -, -, hlat⟩ := h
  exact hlat

end Sys2Proof

namespace Sys2Proof.Machine

/-- A state just after reset meets the invariant. -/
theorem resetOf_inv {p : Params} (hp : p.Legal) : (State.resetOf p).Inv where
  params := hp
  memory := List.Pairwise.nil
  ram := fun _ hc => absurd hc List.not_mem_nil
  config := .inl rfl
  subkeyCount := .inl rfl
  outLen := Nat.zero_le _
  result := rfl
  sticky := fun h => absurd rfl h
  running := fun _ _ h => nomatch h

/-- So does the state after a reset edge: the request it sees and the model's own fields do not matter. -/
theorem resetEdge_inv {s : State} (h : s.Inv) (p : Pins) : (s.resetEdge p).Inv := { resetOf_inv h.params with }

namespace State.Inv

/-- A write inside a RAM keeps the canonical form. -/
theorem store {s : State} (h : s.Inv) {base : Nat} {bs : List Byte}
    (hin : ∀ a, base ≤ a → a < base + bs.length → isRam s.params.bufBytes a) : (s.store base bs).Inv :=
  { h with
    memory := s.mem.write_wf base bs h.memory
    ram := fun c hc => by
      obtain hc | ⟨hlo, hhi⟩ := s.mem.mem_write base bs c hc
      · exact h.ram c hc
      · exact hin c.1 hlo hhi }

/-! #### Completions -/

theorem completeOk {s : State} (h : s.Inv) : s.completeOk.Inv :=
  { h with result := rfl, sticky := fun hd => absurd rfl hd, running := fun _ _ hs => nomatch hs }

theorem raise {s : State} (h : s.Inv) (d : DetailCode) : (s.raise d).Inv :=
  { h with result := rfl, sticky := fun _ => rfl, running := fun _ _ hs => nomatch hs }

/-! #### Outputs and subkeys -/

theorem putOut {s : State} (h : s.Inv) {bs : List Byte} {n : Nat}
    (hfit : bs.length ≤ s.params.bufBytes ∧ n ≤ s.params.bufBytes) : (s.putOut bs n).Inv := by
  obtain ⟨hbs, hn⟩ := hfit
  have hstore : (s.store outBase bs).Inv := h.store fun a hlo hhi => .inr (.inr ⟨hlo, by omega⟩)
  exact { hstore with outLen := (Nat.mod_le n (2 ^ 32)).trans hn }

theorem raiseScrub {s : State} (h : s.Inv) (d : DetailCode) : (s.raiseScrub d).Inv :=
  (h.putOut ⟨List.length_replicate.le, Nat.zero_le _⟩).raise d

theorem putWork {s : State} (h : s.Inv) (w : Work) : (s.putWork w).Inv := { h with }

theorem putChaining {s : State} (h : s.Inv) (x : Chaining) : (s.putChaining x).Inv := { h with }

theorem runKeySchedule {s : State} (h : s.Inv) (hr : s.config.rounds ≠ 0) : s.runKeySchedule.Inv := by
  have hpos : 1 ≤ s.rounds := Nat.one_le_iff_ne_zero.2 fun h0 => hr (BitVec.eq_of_toNat_eq h0)
  have hmax : s.rounds ≤ 255 := s.rounds_le
  have hstore : (s.store sBase (leBytes s.subkeys)).Inv := h.store fun a hlo hhi => .inl ⟨hlo, by
    rw [leBytes_length, State.subkeys_length] at hhi
    unfold Config.tMax
    omega⟩
  refine { hstore with subkeyCount := .inr ⟨s.rounds, hpos, hmax, ?_⟩ }
  rw [State.runKeySchedule_subkeyCount, State.subkeys_length, BitVec.toNat_ofNat]
  omega

/-! #### Commands -/

theorem clearStatus {s : State} (h : s.Inv) :
    (State.completeOk { s with status := { s.status with stickyErr := false, wrIgnored := false } }).Inv :=
  { h with result := rfl, sticky := fun hd => absurd rfl hd, running := fun _ _ hs => nomatch hs }

/-- Every command keeps the invariant. -/
theorem exec {i : Instr} {s t : State} (h : s.Inv) (hex : Sys2Proof.Machine.exec i s = .next t) : t.Inv := by
  cases exec_cases hex with
  | nop => exact h.completeOk
  | roundsSet imm => exact completeOk { h with }
  | blockSet imm himm => exact completeOk { h with config := .inr (himm ▸ rfl) }
  | statusCleared => exact h.clearStatus
  | refused i d => exact h.raise d
  | scrubbed i d => exact h.raiseScrub d
  | expanded hr => exact (h.runKeySchedule hr).completeOk
  | blockDone i w _ hr =>
    exact (((h.runKeySchedule hr).putWork w).putOut (by simpa using h.params.block_le)).completeOk
  | messageDone i x n _ hr hfit =>
    have hroom := hfit h.params h.config
    exact (((h.runKeySchedule hr).putChaining x).putOut (by simpa using hroom)).completeOk
  | paddingRefused x d hr => exact ((h.runKeySchedule hr).putChaining x).raiseScrub d
  | paddedOrStripped i bs n _ hfit => exact (h.putOut (hfit h.params h.config)).completeOk

/-! #### The bus -/

theorem busyExtra_lt {latency : Nat} (n : Nat) (h : 1 ≤ latency) : busyExtra latency n < latency := by
  unfold busyExtra
  split
  · omega
  · omega
  · exact Nat.mod_lt _ (by omega)

theorem accept {s : State} (h : s.Inv) (w : Word) : (s.accept w).Inv :=
  { h with
    result := rfl
    sticky := fun hd => absurd rfl hd
    running := fun w' n hs => by
      obtain ⟨rfl, rfl⟩ : w = w' ∧ _ = n := by simpa using hs
      exact ⟨busyExtra_lt _ h.params.one_le_latency, rfl, rfl⟩ }

theorem writeTarget {s : State} (h : s.Inv) (v : Word) {tg : Target} (hr : tg.InRange s.params.bufBytes)
    (ha : tg.address % 4 = 0) : (s.writeTarget v tg).Inv := by
  cases tg with
  | cmd => exact h.accept v
  | inBuf o =>
    refine h.store fun a hlo hhi => .inr (.inl ⟨by omega, ?_⟩)
    obtain ⟨hmod, -, -, -⟩ := h.params
    simp only [Target.address, Target.InRange, inBase, wordBytes_length] at *
    omega
  | _ => exact { h with }

theorem access {s t : State} {q : BusReq} (h : s.Inv) (hc : AccessCase s q t) : t.Inv := by
  cases hc with
  | wrote tg _ _ htg =>
    obtain ⟨halign, haddr, hrange⟩ := targetOf_spec htg
    exact { h.writeTarget q.wdata hrange (haddr ▸ halign) with }
  | _ => exact { h with }

theorem busEdge {p : Pins} {s t : State} (h : s.Inv) (hbus : Sys2Proof.Machine.busEdge p s = .ok t) : t.Inv := by
  obtain ⟨-, rfl⟩ | ⟨q, -, -, rfl⟩ := busEdge_cases hbus
  · exact { h with }
  · have hfree : State.Inv { s with pending := none } := { h with }
    exact hfree.access (hostAccess_cases _ q)

end State.Inv

end Sys2Proof.Machine

namespace Sys2Proof.Machine

/-- While a command runs, no transaction touches the sequencer (20_memory.md R61). -/
theorem busEdge_seq_of_running {p : Pins} {s t : State} {w : Word} {n : Nat} (hseq : s.seq = .running w n)
    (hbus : busEdge p s = .ok t) : t.seq = .running w n := by
  have hbusy : s.busy = true := by simp [State.busy, hseq, Sequencer.isRunning]
  obtain ⟨-, rfl⟩ | ⟨q, -, -, rfl⟩ := busEdge_cases hbus
  · exact hseq
  · have hc := hostAccess_cases { s with pending := none } q
    generalize State.hostAccess { s with pending := none } q = t at hc ⊢
    cases hc with
    | wrote tg _ hidle => exact absurd hbusy (Bool.eq_false_iff.1 hidle)
    | _ => exact hseq

/-- One edge nearer to completion, the invariant holds still. -/
theorem State.Inv.countDown {s : State} (h : s.Inv) {w : Word} {n : Nat} (hseq : s.seq = .running w (n + 1)) :
    State.Inv { s with seq := .running w n } := by
  obtain ⟨hlt, hop, hdetail⟩ := h.running w (n + 1) hseq
  exact
    { h with
      running := fun w' n' hs => by
        obtain ⟨rfl, rfl⟩ : w = w' ∧ n = n' := by simpa using hs
        exact ⟨Nat.lt_of_succ_lt hlt, hop, hdetail⟩ }

/-- A captured word keeps the invariant, legal or not. -/
theorem State.Inv.runCommandWord {w : Word} {s t : State} (h : s.Inv)
    (hrun : Sys2Proof.Machine.runCommandWord w s = .next t) : t.Inv := by
  obtain ⟨i, -, hex⟩ | ⟨e, rfl⟩ := runCommandWord_cases hrun
  · exact h.exec hex
  · exact h.raise _

end Sys2Proof.Machine

namespace Sys2Proof.Proofs

open Sys2Proof.Machine

/-- Settles O3: a reset edge, the bus, the countdown and every command keep the invariant. -/
theorem stepKeepsInvariant : Obligations.StepKeepsInvariant := by
  intro s t h hstep
  have htake : s.takePins.Inv := { h with }
  obtain ⟨-, rfl⟩ | ⟨s', -, hbus, ⟨-, rfl⟩ | ⟨w, n, hseq, rfl⟩ | ⟨w, -, hrun⟩⟩ := step_cases hstep
  · exact resetEdge_inv htake _
  · exact htake.busEdge hbus
  · exact (htake.busEdge hbus).countDown (busEdge_seq_of_running (s := s.takePins) hseq hbus)
  · exact (htake.busEdge hbus).runCommandWord hrun

end Sys2Proof.Proofs

/-! ### The hidden registers -/

namespace Sys2Proof.Machine

/-- Two states agree but for the hidden registers (10_state.md R36 to R39). -/
def SameVisible (s t : State) : Prop :=
  t = { s with work := t.work, scratch := t.scratch, chain := t.chain, blockIndex := t.blockIndex }

namespace SameVisible

variable {s t : State}

/-! #### What updates keep the agreement -/

theorem completeOk (h : SameVisible s t) : SameVisible s.completeOk t.completeOk := by
  rw [h]; rfl

theorem raise (h : SameVisible s t) (d : DetailCode) : SameVisible (s.raise d) (t.raise d) := by
  rw [h]; rfl

theorem putOut (h : SameVisible s t) (bs : List Byte) (n : Nat) : SameVisible (s.putOut bs n) (t.putOut bs n) := by
  rw [h]; rfl

theorem raiseScrub (h : SameVisible s t) (d : DetailCode) : SameVisible (s.raiseScrub d) (t.raiseScrub d) := by
  rw [h]; rfl

theorem runKeySchedule (h : SameVisible s t) : SameVisible s.runKeySchedule t.runKeySchedule := by
  rw [h]; rfl

theorem putWork (h : SameVisible s t) (w w' : Work) : SameVisible (s.putWork w) (t.putWork w') := by
  rw [h]; rfl

theorem putChaining (h : SameVisible s t) (x x' : Chaining) : SameVisible (s.putChaining x) (t.putChaining x') := by
  rw [h]; rfl

/-- Two message commands that put out the same agree. -/
theorem messageDone (h : SameVisible s t) {x y : Chaining} (hout : y.out = x.out) (n : Nat) :
    SameVisible ((s.runKeySchedule.putChaining x).putOut x.out n).completeOk
      ((t.runKeySchedule.putChaining y).putOut y.out n).completeOk := by
  rw [hout]
  exact ((h.runKeySchedule.putChaining x y).putOut x.out n).completeOk

end SameVisible

/-- Two outcomes are next states that agree but for the hidden registers. -/
def SameOutcome (o o' : Host.Outcome State Fault Refusal) : Prop :=
  ∃ t t', o = .next t ∧ o' = .next t' ∧ SameVisible t t'

/-! #### The chaining loop does not read the working registers it starts from (43_pcbc.md R162) -/

/-- Two chaining values agree but for the working registers. -/
def Chaining.Same (x y : Chaining) : Prop := y = { x with work := y.work }

theorem Chaining.Same.out {x y : Chaining} (h : x.Same y) : y.out = x.out := by
  rw [h]

theorem foldl_same {f : Chaining → List Byte → Chaining} (hf : ∀ x y b, x.Same y → (f x b).Same (f y b))
    (bs : List (List Byte)) {x y : Chaining} (h : x.Same y) : (bs.foldl f x).Same (bs.foldl f y) := by
  induction bs generalizing x y with
  | nil => exact h
  | cons b bs ih => exact ih (hf x y b h)

theorem pcbcEncRun_out (ks : List Word) (r : Nat) (pp iv : List Byte) (w w' : Work) :
    (pcbcEncRun ks r pp iv w').out = (pcbcEncRun ks r pp iv w).out := by
  have hstep : ∀ x y b, x.Same y → (pcbcEncStep ks r x b).Same (pcbcEncStep ks r y b) := fun x y b h => by
    rw [h]; rfl
  exact (foldl_same hstep _ (x := chainStart iv w) (y := chainStart iv w') rfl).out

theorem pcbcDecRun_out (ks : List Word) (r : Nat) (ct iv : List Byte) (w w' : Work) :
    (pcbcDecRun ks r ct iv w').out = (pcbcDecRun ks r ct iv w).out := by
  have hstep : ∀ x y b, x.Same y → (pcbcDecStep ks r x b).Same (pcbcDecStep ks r y b) := fun x y b h => by
    rw [h]; rfl
  exact (foldl_same hstep _ (x := chainStart iv w) (y := chainStart iv w') rfl).out

/-! #### Commands -/

/-- The state with other contents of the hidden registers. -/
def State.withHidden (s : State) (w : Work) (c : Scratch) (h : Chain) (n : Nat) : State :=
  { s with work := w, scratch := c, chain := h, blockIndex := n }

variable (s : State) (w : Work) (c : Scratch) (h : Chain) (n : Nat)

theorem sameVisible_withHidden : SameVisible s (s.withHidden w c h n) := rfl

theorem execSetRounds_withHidden (imm : Nat) :
    SameOutcome (execSetRounds imm s) (execSetRounds imm (s.withHidden w c h n)) := by
  unfold execSetRounds
  split
  · exact ⟨_, _, rfl, rfl, rfl⟩
  · exact ⟨_, _, rfl, rfl, rfl⟩

theorem execSetBlock_withHidden (imm : Nat) :
    SameOutcome (execSetBlock imm s) (execSetBlock imm (s.withHidden w c h n)) := by
  unfold execSetBlock
  split
  · exact ⟨_, _, rfl, rfl, rfl⟩
  · exact ⟨_, _, rfl, rfl, rfl⟩

theorem execExpandKey_withHidden : SameOutcome (execExpandKey s) (execExpandKey (s.withHidden w c h n)) := by
  have hs := sameVisible_withHidden s w c h n
  unfold execExpandKey
  rw [show (s.withHidden w c h n).cipherChecks = s.cipherChecks from rfl]
  cases s.cipherChecks with
  | some d => exact ⟨_, _, rfl, rfl, hs.raise d⟩
  | none => exact ⟨_, _, rfl, rfl, hs.runKeySchedule.completeOk⟩

theorem blockCommand_withHidden (f : List Word → Nat → List Byte → Work) :
    SameOutcome (blockCommand f s) (blockCommand f (s.withHidden w c h n)) := by
  have hs := sameVisible_withHidden s w c h n
  unfold blockCommand
  rw [show (s.withHidden w c h n).cipherChecks = s.cipherChecks from rfl]
  cases s.cipherChecks with
  | some d => exact ⟨_, _, rfl, rfl, hs.raiseScrub d⟩
  | none => exact ⟨_, _, rfl, rfl, ((hs.runKeySchedule.putWork _ _).putOut _ _).completeOk⟩

theorem execEncryptMsg_withHidden : SameOutcome (execEncryptMsg s) (execEncryptMsg (s.withHidden w c h n)) := by
  have hs := sameVisible_withHidden s w c h n
  have hout := pcbcEncRun_out s.subkeys s.rounds (padBytes s.blockSize s.message) s.ivBytes s.work w
  unfold execEncryptMsg
  rw [show (s.withHidden w c h n).encryptChecks = s.encryptChecks from rfl]
  cases s.encryptChecks with
  | some d => exact ⟨_, _, rfl, rfl, hs.raiseScrub d⟩
  | none =>
    refine ⟨_, _, rfl, congrArg Host.Outcome.next ?_, hs.messageDone hout _⟩
    rw [← hout]
    rfl

/-- What follows DECRYPT_MSG's chaining loop agrees when the loops put out the same. -/
theorem execDecryptMsg_withHidden : SameOutcome (execDecryptMsg s) (execDecryptMsg (s.withHidden w c h n)) := by
  have hs := sameVisible_withHidden s w c h n
  unfold execDecryptMsg
  rw [show (s.withHidden w c h n).decryptChecks = s.decryptChecks from rfl,
    show (s.withHidden w c h n).blockSize = s.blockSize from rfl]
  cases s.decryptChecks with
  | some d => exact ⟨_, _, rfl, rfl, hs.raiseScrub d⟩
  | none =>
    dsimp only
    have hout : (pcbcDecRun (s.withHidden w c h n).subkeys (s.withHidden w c h n).rounds (s.withHidden w c h n).message
        (s.withHidden w c h n).ivBytes (s.withHidden w c h n).work).out =
        (pcbcDecRun s.subkeys s.rounds s.message s.ivBytes s.work).out :=
      pcbcDecRun_out s.subkeys s.rounds s.message s.ivBytes s.work w
    generalize pcbcDecRun s.subkeys s.rounds s.message s.ivBytes s.work = x at hout ⊢
    rw [hout]
    cases padCount s.blockSize x.out with
    | error d => exact ⟨_, _, rfl, rfl, (hs.runKeySchedule.putChaining _ _).raiseScrub d⟩
    | ok k => exact ⟨_, _, rfl, rfl, ((hs.runKeySchedule.putChaining _ _).putOut _ _).completeOk⟩

theorem execPad_withHidden : SameOutcome (execPad s) (execPad (s.withHidden w c h n)) := by
  have hs := sameVisible_withHidden s w c h n
  unfold execPad
  rw [show (s.withHidden w c h n).padChecks = s.padChecks from rfl]
  cases s.padChecks with
  | some d => exact ⟨_, _, rfl, rfl, hs.raiseScrub d⟩
  | none => exact ⟨_, _, rfl, rfl, (hs.putOut _ _).completeOk⟩

theorem execUnpad_withHidden : SameOutcome (execUnpad s) (execUnpad (s.withHidden w c h n)) := by
  have hs := sameVisible_withHidden s w c h n
  unfold execUnpad
  rw [show (s.withHidden w c h n).unpadChecks = s.unpadChecks from rfl,
    show padCount (s.withHidden w c h n).blockSize (s.withHidden w c h n).message = padCount s.blockSize s.message from rfl]
  cases s.unpadChecks with
  | some d => exact ⟨_, _, rfl, rfl, hs.raiseScrub d⟩
  | none =>
    cases padCount s.blockSize s.message with
    | error d => exact ⟨_, _, rfl, rfl, hs.raiseScrub d⟩
    | ok k => exact ⟨_, _, rfl, rfl, (hs.putOut _ _).completeOk⟩

/-- No command's effect on the rest of the state depends on the hidden registers. -/
theorem exec_withHidden (i : Instr) : SameOutcome (exec i s) (exec i (s.withHidden w c h n)) := by
  have hs := sameVisible_withHidden s w c h n
  cases i with
  | nop => exact ⟨_, _, rfl, rfl, hs.completeOk⟩
  | setRounds imm => exact execSetRounds_withHidden s w c h n imm
  | setBlock imm => exact execSetBlock_withHidden s w c h n imm
  | clearStatus => exact ⟨_, _, rfl, rfl, rfl⟩
  | expandKey => exact execExpandKey_withHidden s w c h n
  | blockEnc => exact blockCommand_withHidden s w c h n encWork
  | blockDec => exact blockCommand_withHidden s w c h n decWork
  | encryptMsg => exact execEncryptMsg_withHidden s w c h n
  | decryptMsg => exact execDecryptMsg_withHidden s w c h n
  | pad => exact execPad_withHidden s w c h n
  | unpad => exact execUnpad_withHidden s w c h n

end Sys2Proof.Machine

namespace Sys2Proof.Proofs

open Sys2Proof.Machine

/-- Settles O49: no check and no output reads a hidden register that the command has not written. -/
theorem hiddenRegistersUnobservable : Obligations.HiddenRegistersUnobservable :=
  fun i s w c h n => exec_withHidden s w c h n i

end Sys2Proof.Proofs

/-! ### Which step changes what -/

namespace Sys2Proof.Machine

/-- Only SET_ROUNDS and SET_BLOCK write CONFIG. -/
theorem ExecCase.config {i : Instr} {s t : State} (hc : ExecCase s i t) (h : t.config ≠ s.config) :
    ∃ imm, i = .setRounds imm ∨ i = .setBlock imm := by
  cases hc with
  | roundsSet imm => exact ⟨imm, .inl rfl⟩
  | blockSet imm => exact ⟨imm, .inr rfl⟩
  | _ => simp at h

/-- Only a command that runs the key schedule writes SUBKEY_COUNT. -/
theorem ExecCase.subkeyCount {i : Instr} {s t : State} (hc : ExecCase s i t) (h : t.subkeyCount ≠ s.subkeyCount) :
    i ∈ keyScheduleCommands := by
  cases hc with
  | expanded => simp
  | blockDone i w hi => exact mem_keyScheduleCommands (.inl hi)
  | messageDone i x n hi => exact mem_keyScheduleCommands (.inr hi)
  | paddingRefused => simp
  | _ => simp at h

/-- Only a command that writes OUT_BUF writes OUT_LEN. -/
theorem ExecCase.outLen {i : Instr} {s t : State} (hc : ExecCase s i t) (h : t.outLen ≠ s.outLen) :
    i ∈ outputCommands := by
  cases hc with
  | scrubbed i d hi => exact hi
  | blockDone i w hi => exact mem_outputCommands (.inl hi)
  | messageDone i x n hi => exact mem_outputCommands (.inr (.inl hi))
  | paddingRefused => simp
  | paddedOrStripped i bs n hi => exact mem_outputCommands (.inr (.inr hi))
  | _ => simp at h

/-- Every command but CLEAR_STATUS keeps the sticky bits that are set. -/
theorem ExecCase.sticky {i : Instr} {s t : State} (hc : ExecCase s i t) (hi : i ≠ .clearStatus) :
    (s.status.stickyErr = true → t.status.stickyErr = true) ∧ (s.status.wrIgnored = true → t.status.wrIgnored = true) := by
  cases hc with
  | statusCleared => exact absurd rfl hi
  | refused | scrubbed | paddingRefused => simp
  | _ => simp

/-- The registers that the host alone writes, and LAST_OP. -/
structure KeptByCommands (s t : State) : Prop where
  key    : t.key = s.key
  keyLen : t.keyLen = s.keyLen
  iv     : t.iv = s.iv
  ivLen  : t.ivLen = s.ivLen
  msgLen : t.msgLen = s.msgLen
  lastOp : t.status.lastOp = s.status.lastOp

theorem ExecCase.kept {i : Instr} {s t : State} (hc : ExecCase s i t) : KeptByCommands s t := by
  cases hc <;> constructor <;> simp

/-- Between S and OUT_BUF no command changes a byte. -/
theorem exec_byteAt_between {i : Instr} {s t : State} {a : Nat} (hex : exec i s = .next t) (hlo : inBase ≤ a)
    (hhi : a < outBase) : t.byteAt a = s.byteAt a := by
  by_contra h
  obtain ⟨-, hS⟩ | ⟨-, hO⟩ := (exec_cases hex).byteAt h
  · unfold inSubkeys sBase Config.tMax at hS
    unfold inBase at hlo
    omega
  · omega

end Sys2Proof.Machine

namespace Sys2Proof.Proofs

open Sys2Proof.Machine

/-- Settles O50: neither the bus nor an illegal word writes CONFIG, and of the commands only the two setters. -/
theorem onlySettersChangeConfig : Obligations.OnlySettersChangeConfig := by
  intro s t hstep h
  obtain hr | ⟨s', hbus, hedge⟩ := step_effect hstep
  · exact .inl hr
  have hkept : s'.config = s.config := (busEdge_kept hbus).config
  obtain ⟨q, rfl⟩ | ⟨d, rfl⟩ | ⟨w, i, hseq, hdec, hex⟩ := hedge
  · exact absurd hkept h
  · exact absurd hkept h
  · obtain ⟨imm, rfl | rfl⟩ := (exec_cases hex).config (hkept ▸ h)
    · exact .inr ⟨w, imm, hseq, .inl hdec⟩
    · exact .inr ⟨w, imm, hseq, .inr hdec⟩

/-- Settles O51: no host write reaches the subkey RAM, and of the commands only those that run the key schedule do. -/
theorem onlyKeyScheduleChangesSubkeys : Obligations.OnlyKeyScheduleChangesSubkeys := by
  intro s t hstep h
  obtain hr | ⟨s', hbus, hedge⟩ := step_effect hstep
  · exact .inl hr
  have hcount : s'.subkeyCount = s.subkeyCount := (busEdge_kept hbus).subkeyCount
  have hbyte (a : Nat) (ha : inSubkeys Config.tMax a) : s'.byteAt a = s.byteAt a :=
    busEdge_byteAt_outside (s := s.takePins) hbus (.inl (ha.2.trans (by decide)))
  replace h : t.subkeyCount ≠ s'.subkeyCount ∨ ∃ a, inSubkeys Config.tMax a ∧ t.byteAt a ≠ s'.byteAt a :=
    h.imp (hcount ▸ ·) fun ⟨a, ha, h⟩ => ⟨a, ha, hbyte a ha ▸ h⟩
  obtain ⟨q, rfl⟩ | ⟨d, rfl⟩ | ⟨w, i, hseq, hdec, hex⟩ := hedge
  · obtain h | ⟨a, -, h⟩ := h <;> exact absurd rfl h
  · obtain h | ⟨a, -, h⟩ := h <;> exact absurd rfl h
  · refine .inr ⟨w, i, hseq, hdec, ?_⟩
    obtain h | ⟨a, ha, h⟩ := h
    · exact (exec_cases hex).subkeyCount h
    · obtain ⟨hi, -⟩ | ⟨-, hO⟩ := (exec_cases hex).byteAt h
      · exact hi
      · exact absurd (ha.2.trans_le (by decide)) (Nat.not_lt.2 hO)

/-- Settles O52: a command writes below and above IN_BUF only, so the byte was changed by the bus. -/
theorem onlyHostChangesInBuf : Obligations.OnlyHostChangesInBuf := by
  intro s t o ⟨_, _, hmax, _⟩ hstep ho h
  obtain hr | ⟨s', hbus, hedge⟩ := step_effect hstep
  · exact .inl hr
  have hlate : t.byteAt (inBase + o) = s'.byteAt (inBase + o) := by
    obtain ⟨q, rfl⟩ | ⟨d, rfl⟩ | ⟨w, i, -, -, hex⟩ := hedge
    · rfl
    · rfl
    · exact exec_byteAt_between hex (Nat.le_add_right _ _) (by unfold inBase outBase; omega)
  obtain ⟨q, hq, hwe, hidle, hword, -, -⟩ := busEdge_byteAt hbus (hlate ▸ h)
  refine .inr ⟨q, hq, hwe, hidle, hword.trans ?_⟩
  unfold inBase
  omega

/-- Settles O53: no host write reaches OUT_BUF, and of the commands only those that write OUT_BUF do. -/
theorem onlyCommandsChangeOutBuf : Obligations.OnlyCommandsChangeOutBuf := by
  intro s t hlegal hstep h
  obtain hr | ⟨s', hbus, hedge⟩ := step_effect hstep
  · exact .inl hr
  have hlen : s'.outLen = s.outLen := (busEdge_kept hbus).outLen
  have hbyte (a : Nat) (ha : inOutput s.params.bufBytes a) : s'.byteAt a = s.byteAt a :=
    busEdge_byteAt_outside (s := s.takePins) hbus (.inr ⟨hlegal, ha.1⟩)
  replace h : t.outLen ≠ s'.outLen ∨ ∃ a, inOutput s.params.bufBytes a ∧ t.byteAt a ≠ s'.byteAt a :=
    h.imp (hlen ▸ ·) fun ⟨a, ha, h⟩ => ⟨a, ha, hbyte a ha ▸ h⟩
  obtain ⟨q, rfl⟩ | ⟨d, rfl⟩ | ⟨w, i, hseq, hdec, hex⟩ := hedge
  · obtain h | ⟨a, -, h⟩ := h <;> exact absurd rfl h
  · obtain h | ⟨a, -, h⟩ := h <;> exact absurd rfl h
  · refine .inr ⟨w, i, hseq, hdec, ?_⟩
    obtain h | ⟨a, ha, h⟩ := h
    · exact (exec_cases hex).outLen h
    · obtain ⟨-, hS⟩ | ⟨hi, -⟩ := (exec_cases hex).byteAt h
      · exact absurd (hS.2.trans (by decide : sBase + 4 * Config.tMax < outBase)) (Nat.not_lt.2 ha.1)
      · exact hi

/-- Settles O54: the bus, an illegal word and every other command only set the two bits. -/
theorem stickyBitsStay : Obligations.StickyBitsStay := by
  intro s t hstep h
  by_contra hno
  obtain ⟨hrst, hclear⟩ := not_or.1 hno
  obtain hr | ⟨s', hbus, hedge⟩ := step_effect hstep
  · exact hrst hr
  have hkept := busEdge_kept hbus
  have hstay : (s'.status.stickyErr = true → t.status.stickyErr = true) ∧
      (s'.status.wrIgnored = true → t.status.wrIgnored = true) := by
    obtain ⟨q, rfl⟩ | ⟨d, rfl⟩ | ⟨w, i, hseq, hdec, hex⟩ := hedge
    · exact ⟨id, id⟩
    · exact ⟨fun _ => rfl, id⟩
    · exact (exec_cases hex).sticky fun hi => hclear ⟨w, hseq, hi ▸ hdec⟩
  obtain ⟨hset, hcleared⟩ | ⟨hset, hcleared⟩ := h
  · exact absurd (hstay.1 (hkept.stickyErr.trans hset)) (by simp [hcleared])
  · exact absurd (hstay.2 (hkept.wrIgnored hset)) (by simp [hcleared])

/-- Settles O55: a command writes STATUS but LAST_OP, CONFIG, the two counts, S, OUT_BUF and the hidden registers. -/
theorem commandsKeepHostRegisters : Obligations.CommandsKeepHostRegisters := by
  intro i s t hex
  obtain ⟨t', ht', hleaves⟩ := exec_next i s
  obtain rfl : t = t' := by simpa [ht'] using hex.symm
  obtain ⟨hkey, hkeyLen, hiv, hivLen, hmsgLen, hlastOp⟩ := (exec_cases hex).kept
  exact ⟨hleaves.params, hkey, hkeyLen, hiv, hivLen, hmsgLen, hlastOp, hleaves.seq,
    fun a hlo hhi => exec_byteAt_between hex hlo hhi⟩

end Sys2Proof.Proofs

/-! ### Reset, the step of a placed word, and the layout of STATUS and CONFIG -/

namespace Sys2Proof.Machine

/-- Decoding is determined by the two fields of the word. -/
theorem decode_of_fields {w : Word} {i : Instr} (hop : opField w = i.opcode) (harg : (argField w).toNat = i.argument) :
    decode w = .ok i := by
  have hzero (h : i.argument = 0) : argField w = 0 := BitVec.eq_of_toNat_eq (harg.trans h)
  unfold decode
  rw [hop]
  cases i with
  | setRounds imm => exact congrArg (fun n => Except.ok (Instr.setRounds n)) harg
  | setBlock imm => exact congrArg (fun n => Except.ok (Instr.setBlock n)) harg
  | _ => exact if_pos (hzero rfl)

/-- The word of a well-formed command holds its opcode and its argument. -/
theorem encode_fields (i : Instr) (h : i.wellFormed = true) :
    opField (encode i) = i.opcode ∧ (argField (encode i)).toNat = i.argument := by
  cases i with
  | setRounds imm => exact Laws.EncodedFields.setRounds imm h
  | setBlock imm => exact Laws.EncodedFields.setBlock imm h
  | _ => exact Laws.encodedFields_of_fits _ (by decide)

theorem decode_encode (i : Instr) (h : i.wellFormed = true) : decode (encode i) = .ok i :=
  decode_of_fields (encode_fields i h).1 (encode_fields i h).2

/-- A 32-bit table word is the word itself. -/
theorem tableWord_toNat (w : Word) : tableWord 32 w.toNat = w := by
  unfold tableWord
  rw [Nat.mod_eq_of_lt w.isLt, BitVec.ofNat_toNat, BitVec.setWidth_eq]

/-- At the completion edge of a word that decodes, the step is its command after the bus. -/
theorem step_of_completion {s s' : State} {w : Word} {i : Instr} (hseq : s.seq = .running w 0)
    (hdec : decode w = .ok i) (hrst : s.pinsNow.rstN = true) (hbus : busEdge s.pinsNow s.takePins = .ok s') :
    step s = exec i s' := by
  simp only [step, clockEdge, hrst, if_true, hbus, State.takePins_seq, hseq, sequencerEdge, runCommandWord, hdec]

/-- A silent host leaves the edge to the sequencer. -/
theorem busEdge_of_silent {s : State} (hin : s.inputs = []) (hp : s.pending = none) :
    busEdge s.pinsNow s.takePins = .ok { s with response := .noAck } := by
  obtain ⟨⟩ := s
  cases hin
  cases hp
  rfl

theorem pinsNow_of_silent {s : State} (hin : s.inputs = []) : s.pinsNow = idlePins := by
  rw [State.pinsNow, hin]
  rfl

theorem step_of_completion_silent {s : State} {w : Word} {i : Instr} (hseq : s.seq = .running w 0)
    (hdec : decode w = .ok i) (hin : s.inputs = []) (hp : s.pending = none) :
    step s = exec i { s with response := .noAck } :=
  step_of_completion hseq hdec (by rw [pinsNow_of_silent hin]; rfl) (busEdge_of_silent hin hp)

/-! #### The words of STATUS and CONFIG -/

theorem resetOf_statusWord (p : Params) : (State.resetOf p).statusWord = 0 := by
  show 0#8 ++ 0#8 ++ 0#8 ++ 0#4 ++ 0#1 ++ 0#1 ++ 0#1 ++ 0#1 = 0#32
  decide

theorem resetOf_configWord (p : Params) : (State.resetOf p).configWord = 0 := by
  show 0#16 ++ 0#8 ++ 0#8 = 0#32
  decide

/-- The fields of STATUS, each peeled out of the concatenation (10_state.md R22). -/
theorem statusWord_fields (s : State) :
    s.statusWord.getLsbD 0 = s.busy ∧ s.statusWord.getLsbD 1 = s.status.stickyErr ∧
    s.statusWord.getLsbD 2 = s.status.wrIgnored ∧ s.statusWord.getLsbD 3 = false ∧
    s.statusWord.extractLsb' 4 4 = s.status.result.code ∧ s.statusWord.extractLsb' 8 8 = s.status.detail.code ∧
    s.statusWord.extractLsb' 16 8 = s.status.lastOp ∧ s.statusWord.extractLsb' 24 8 = 0 := by
  unfold State.statusWord
  simp (disch := decide) only [BitVec.getLsbD_append, BitVec.extractLsb'_append_eq_of_le,
    BitVec.extractLsb'_append_eq_of_add_le]
  simp

/-- The fields of CONFIG (10_state.md R21). -/
theorem configWord_fields (s : State) :
    s.configWord.extractLsb' 0 8 = s.config.rounds ∧ s.configWord.extractLsb' 8 8 = s.config.blockBytes ∧
    s.configWord.extractLsb' 16 16 = 0 := by
  unfold State.configWord
  simp (disch := decide) only [BitVec.extractLsb'_append_eq_of_le, BitVec.extractLsb'_append_eq_of_add_le]
  simp

end Sys2Proof.Machine

namespace Sys2Proof.Proofs

open Sys2Proof.Machine

/-- Settles O1: each register of the reset state holds the value of R42's table. -/
theorem resetValues : Obligations.ResetValues := by
  refine ⟨rfl, fun p => ⟨rfl, resetOf_statusWord p, resetOf_configWord p, fun n => ?_, rfl, fun n => ?_, rfl, rfl, rfl,
    rfl, rfl, fun a => rfl⟩⟩
  · exact Vector.getElem_replicate n.isLt
  · exact Vector.getElem_replicate n.isLt

/-- Settles O2: the default parameters are legal, and legality is all that the reset state needs. -/
theorem resetSatisfiesInvariant : Obligations.ResetSatisfiesInvariant :=
  ⟨resetOf_inv (by decide), fun _ hp => resetOf_inv hp⟩

/-- Settles O10: with a silent host, the bus of the edge only clears the ack. -/
theorem stepRunsDecodedCommand : Obligations.StepRunsDecodedCommand :=
  ⟨fun _ _ _ _ hseq hdec hrst hbus => step_of_completion hseq hdec hrst hbus,
    fun _ _ _ hseq hdec hin hp => step_of_completion_silent hseq hdec hin hp⟩

/-- Settles O11: the placed word is the encoded one, decodes to its command, and stands at its completion edge. -/
theorem placedWordRunsNext : Obligations.PlacedWordRunsNext := by
  intro s i hi
  rw [State.withFetchWord, tableWord_toNat]
  exact step_of_completion_silent rfl (decode_encode i hi) rfl rfl

/-- Settles O24: the codes by evaluation, the fields by peeling the concatenations. -/
theorem statusAndConfigLayout : Obligations.StatusAndConfigLayout := by
  refine ⟨rfl, rfl, rfl, rfl, rfl, fun s => ?_⟩
  obtain ⟨hbusy, hsticky, hignored, hreserved, hresult, hdetail, hlastOp, hupper⟩ := statusWord_fields s
  exact ⟨hbusy, hsticky, hignored, hreserved, hresult, hdetail, hlastOp, hupper, configWord_fields s⟩

end Sys2Proof.Proofs

/-! ### The address map, from a place to its address -/

namespace Sys2Proof.Machine

/-- An aligned address of the register block names the register at its word index (20_memory.md R51). -/
theorem targetOf_register {n : Nat} (hn : n < 20) (bufBytes : Nat) :
    targetOf bufBytes (BitVec.ofNat 16 (4 * n)) = some (registerAt n) := by
  have haddr : (BitVec.ofNat 16 (4 * n)).toNat = 4 * n := by rw [BitVec.toNat_ofNat]; omega
  unfold targetOf
  rw [haddr, if_neg (by omega), if_pos (by omega), Nat.mul_div_cancel_left n (by decide)]

theorem registerAt_key (n : Fin 8) : registerAt (8 + n) = .key n := by revert n; decide
theorem registerAt_iv (n : Fin 4) : registerAt (16 + n) = .iv n := by revert n; decide

theorem windowAt_subkey {k : Nat} (hk : k < Config.tMax) (bufBytes : Nat) :
    windowAt bufBytes (sBase + 4 * k) = some (.subkey k) := by
  unfold windowAt
  rw [if_pos (by omega), Nat.add_sub_cancel_left, Nat.mul_div_cancel_left k (by decide)]

theorem windowAt_inBuf {o bufBytes : Nat} (ho : o < bufBytes) : windowAt bufBytes (inBase + o) = some (.inBuf o) := by
  have hbelow : sBase + 4 * Config.tMax ≤ inBase := by decide
  unfold windowAt
  rw [if_neg (by omega), if_pos (by omega), Nat.add_sub_cancel_left]

theorem windowAt_outBuf {o bufBytes : Nat} (ho : o < bufBytes) (hmax : bufBytes ≤ 16384) :
    windowAt bufBytes (outBase + o) = some (.outBuf o) := by
  have hsubkeys : sBase + 4 * Config.tMax ≤ outBase := by decide
  have hin : inBase + 16384 = outBase := rfl
  unfold windowAt
  rw [if_neg (by omega), if_neg (by omega), if_pos (by omega), Nat.add_sub_cancel_left]

/-- An aligned address above the register block names what the RAM windows say. -/
theorem targetOf_window {a : Nat} (halign : a % 4 = 0) (hlo : 0x50 ≤ a) (hhi : a < 2 ^ 16) (bufBytes : Nat) :
    targetOf bufBytes (BitVec.ofNat 16 a) = windowAt bufBytes a := by
  have haddr : (BitVec.ofNat 16 a).toNat = a := by rw [BitVec.toNat_ofNat, Nat.mod_eq_of_lt hhi]
  unfold targetOf
  rw [haddr, if_neg (by omega), if_neg (by omega)]

/-- The address of a place names that place: the other direction of `targetOf_spec`. -/
theorem targetOf_address {p : Params} (hp : p.Legal) {tg : Target} (hr : tg.InRange p.bufBytes)
    (ha : tg.address % 4 = 0) : targetOf p.bufBytes (BitVec.ofNat 16 tg.address) = some tg := by
  obtain ⟨-, -, hmax, -⟩ := hp
  have hS : sBase = 0x1000 := rfl
  have hI : inBase = 0x4000 := rfl
  have hO : outBase = 0x8000 := rfl
  have hT : Config.tMax = 514 := rfl
  cases tg with
  | cmd | status | config | keyLen | ivLen | msgLen | outLen | subkeyCount => rfl
  | key n =>
    have haddr : (Target.key n).address = 4 * (8 + n.val) := by simp only [Target.address]; omega
    rw [haddr, targetOf_register (by omega), registerAt_key]
  | iv n =>
    have haddr : (Target.iv n).address = 4 * (16 + n.val) := by simp only [Target.address]; omega
    rw [haddr, targetOf_register (by omega), registerAt_iv]
  | subkey k =>
    simp only [Target.InRange, Target.address] at hr ha ⊢
    rw [targetOf_window ha (by omega) (by omega), windowAt_subkey hr]
  | inBuf o =>
    simp only [Target.InRange, Target.address] at hr ha ⊢
    rw [targetOf_window ha (by omega) (by omega), windowAt_inBuf hr]
  | outBuf o =>
    simp only [Target.InRange, Target.address] at hr ha ⊢
    rw [targetOf_window ha (by omega) (by omega), windowAt_outBuf hr hmax]

/-! #### Transactions of a place while IDLE -/

theorem hostAccess_unmapped {s : State} {q : BusReq} (h : targetOf s.params.bufBytes q.addr = none) :
    s.hostAccess q = { s with response := .error } := by
  rw [State.hostAccess, h]

theorem hostAccess_read {s : State} {a : BitVec 16} {x : Word} {tg : Target} (h : targetOf s.params.bufBytes a = some tg)
    (hidle : s.busy = false ∨ tg = .status) :
    s.hostAccess { we := false, addr := a, wdata := x } = { s with response := .read (s.readTarget tg) } := by
  simp only [State.hostAccess, h, State.hostRead, Bool.false_eq_true, if_false]
  rw [if_neg]
  rintro ⟨hbusy, hne⟩
  exact hidle.elim (by simp [hbusy]) hne

theorem hostAccess_write {s : State} {a : BitVec 16} {v : Word} {tg : Target} (h : targetOf s.params.bufBytes a = some tg)
    (hidle : s.busy = false) (hw : tg.writable = true) :
    s.hostAccess { we := true, addr := a, wdata := v } = { s.writeTarget v tg with response := .written } := by
  simp only [State.hostAccess, h, State.hostWrite, hw, hidle, Bool.false_eq_true, reduceCtorEq, if_true, if_false]

/-- A read, while IDLE, of the address of a place answers what the place holds. -/
theorem hostAccess_read_place {s : State} (hp : s.params.Legal) (hidle : s.busy = false) {tg : Target}
    (hr : tg.InRange s.params.bufBytes) (ha : tg.address % 4 = 0) (x : Word) :
    s.hostAccess { we := false, addr := BitVec.ofNat 16 tg.address, wdata := x } =
      { s with response := .read (s.readTarget tg) } :=
  hostAccess_read (targetOf_address hp hr ha) (.inl hidle)

/-- A write, while IDLE, to the address of a writable place stores there. -/
theorem hostAccess_write_place {s : State} (hp : s.params.Legal) (hidle : s.busy = false) {tg : Target}
    (hr : tg.InRange s.params.bufBytes) (ha : tg.address % 4 = 0) (hw : tg.writable = true) (v : Word) :
    s.hostAccess { we := true, addr := BitVec.ofNat 16 tg.address, wdata := v } =
      { s.writeTarget v tg with response := .written } :=
  hostAccess_write (targetOf_address hp hr ha) hidle hw

end Sys2Proof.Machine

namespace Sys2Proof.Proofs

open Sys2Proof.Machine

/-- Settles O58: each address is that of the place it names. -/
theorem addressMap : Obligations.AddressMap := by
  intro s x hp hidle
  have hread {tg : Target} := hostAccess_read_place (s := s) (tg := tg) hp hidle (x := x)
  have hwrite {tg : Target} := hostAccess_write_place (s := s) (tg := tg) hp hidle (v := x)
  have hkey (n : Fin 8) : (Target.key n).address % 4 = 0 := by simp only [Target.address]; omega
  have hiv (n : Fin 4) : (Target.iv n).address % 4 = 0 := by simp only [Target.address]; omega
  refine ⟨fun a v hav => ?_, fun n => hread (tg := .key n) trivial (hkey n), fun n => hread (tg := .iv n) trivial (hiv n),
    fun k hk => hread (tg := .subkey k) hk ?_, fun q hq => ⟨hread (tg := .inBuf (4 * q)) hq ?_,
    hread (tg := .outBuf (4 * q)) hq ?_⟩, hwrite (tg := .keyLen) trivial rfl rfl, hwrite (tg := .ivLen) trivial rfl rfl,
    hwrite (tg := .msgLen) trivial rfl rfl, fun n => hwrite (tg := .key n) trivial (hkey n) rfl,
    fun n => hwrite (tg := .iv n) trivial (hiv n) rfl⟩
  · simp only [List.mem_cons, Prod.mk.injEq, List.not_mem_nil, or_false] at hav
    obtain ⟨rfl, rfl⟩ | ⟨rfl, rfl⟩ | ⟨rfl, rfl⟩ | ⟨rfl, rfl⟩ | ⟨rfl, rfl⟩ | ⟨rfl, rfl⟩ | ⟨rfl, rfl⟩ | ⟨rfl, rfl⟩ := hav
    · exact hread (tg := .cmd) trivial rfl
    · exact hread (tg := .status) trivial rfl
    · exact hread (tg := .config) trivial rfl
    · exact hread (tg := .keyLen) trivial rfl
    · exact hread (tg := .ivLen) trivial rfl
    · exact hread (tg := .msgLen) trivial rfl
    · exact hread (tg := .outLen) trivial rfl
    · exact hread (tg := .subkeyCount) trivial rfl
  · simp only [Target.address, sBase]; omega
  · simp only [Target.address, inBase]; omega
  · simp only [Target.address, outBase]; omega

/-- Settles O13: CMD is a writable place, and its write is the acceptance. -/
theorem acceptanceWrites : Obligations.AcceptanceWrites := by
  intro s w hlat hidle
  have hacc : s.hostAccess { we := true, addr := 0x0000, wdata := w } = { s.accept w with response := .written } :=
    hostAccess_write (tg := .cmd) rfl hidle rfl
  exact ⟨_, busyExtra s.params.latency s.draws, hacc, State.Inv.busyExtra_lt _ hlat, rfl, rfl⟩

/-- Settles O23: a read is an error response, a draw, or the place's value as the response. -/
theorem readsHaveNoSideEffect : Obligations.ReadsHaveNoSideEffect := by
  refine ⟨fun s a x => ⟨_, rfl, ?_⟩, fun s x hidle => hostAccess_read (tg := .cmd) rfl (.inl hidle)⟩
  have hc := hostAccess_cases s { we := false, addr := a, wdata := x }
  generalize s.hostAccess { we := false, addr := a, wdata := x } = t at hc ⊢
  cases hc with
  | error | drew | read => rfl
  | dropped hwe => cases hwe
  | wrote _ hwe => cases hwe

end Sys2Proof.Proofs

/-! ### Reading back what was written, and the byte lanes -/

namespace Sys2Proof.Machine

/-! #### Byte lanes of a word (20_memory.md R55) -/

theorem wordBytes_getD (v : Word) {i : Nat} (hi : i < 4) : (wordBytes v).getD i 0 = v.extractLsb' (8 * i) 8 := by
  interval_cases i <;> rfl

theorem wordBytes_getElem? (v : Word) {i : Nat} (hi : i < 4) : (wordBytes v)[i]? = some (v.extractLsb' (8 * i) 8) := by
  interval_cases i <;> rfl

theorem bytesWord_lanes (b0 b1 b2 b3 : Byte) :
    (bytesWord b0 b1 b2 b3).extractLsb' 0 8 = b0 ∧ (bytesWord b0 b1 b2 b3).extractLsb' 8 8 = b1 ∧
    (bytesWord b0 b1 b2 b3).extractLsb' 16 8 = b2 ∧ (bytesWord b0 b1 b2 b3).extractLsb' 24 8 = b3 := by
  unfold bytesWord
  simp (disch := decide) only [BitVec.extractLsb'_append_eq_of_le, BitVec.extractLsb'_append_eq_of_add_le]
  simp

/-- Byte i of a word of RAM is the byte i places up (20_memory.md R55). -/
theorem State.wordAt_lane (s : State) (a : Nat) {i : Nat} (hi : i < 4) :
    (s.wordAt a).extractLsb' (8 * i) 8 = s.byteAt (a + i) := by
  obtain ⟨h0, h1, h2, h3⟩ := bytesWord_lanes (s.byteAt a) (s.byteAt (a + 1)) (s.byteAt (a + 2)) (s.byteAt (a + 3))
  interval_cases i
  · exact h0
  · exact h1
  · exact h2
  · exact h3

/-- A word is determined by its four byte lanes. -/
theorem word_eq_of_lanes {v w : Word} (h : ∀ i, i < 4 → v.extractLsb' (8 * i) 8 = w.extractLsb' (8 * i) 8) : v = w := by
  apply BitVec.eq_of_getLsbD_eq
  intro j hj
  have hlane := congrArg (fun b : Byte => b.getLsbD (j % 8)) (h (j / 8) (by omega))
  simpa only [BitVec.getLsbD_extractLsb', Nat.mod_lt j (by decide : 0 < 8), decide_true, Bool.true_and,
    Nat.div_add_mod] using hlane

/-- A word stored at an address, byte by byte: its lanes there, what was there before elsewhere. -/
theorem State.byteAt_store_lane (s : State) (a : Nat) (v : Word) {i : Nat} (hi : i < 4) :
    (s.store a (wordBytes v)).byteAt (a + i) = v.extractLsb' (8 * i) 8 := by
  have h := State.byteAt_of_write (s.store_mem a (wordBytes v)) rfl (a + i)
  rwa [wordBytes_length, if_pos (by omega), Nat.add_sub_cancel_left, wordBytes_getD v hi] at h

theorem State.byteAt_store_apart (s : State) {a b : Nat} (v : Word) (h : ¬ (a ≤ b ∧ b < a + 4)) :
    (s.store a (wordBytes v)).byteAt b = s.byteAt b :=
  (State.byteAt_of_write (s.store_mem a (wordBytes v)) rfl b).trans (if_neg h)

/-- A word stored is what its address reads. -/
theorem State.wordAt_store_same (s : State) (a : Nat) (v : Word) : (s.store a (wordBytes v)).wordAt a = v :=
  word_eq_of_lanes fun _ hi => (State.wordAt_lane _ a hi).trans (s.byteAt_store_lane a v hi)

/-- A word elsewhere is left. -/
theorem State.wordAt_store_apart (s : State) {a b : Nat} (v : Word) (h : b + 4 ≤ a ∨ a + 4 ≤ b) :
    (s.store a (wordBytes v)).wordAt b = s.wordAt b :=
  word_eq_of_lanes fun _ hi => by
    rw [State.wordAt_lane _ b hi, State.wordAt_lane _ b hi, s.byteAt_store_apart v (by omega)]

/-- Byte k of a sequence of words is byte k mod 4 of word k div 4 (40_primitives.md R107). -/
theorem leBytes_getElem? (ws : List Word) (k : Nat) :
    (leBytes ws)[k]? = ws[k / 4]?.map fun w => w.extractLsb' (8 * (k % 4)) 8 := by
  induction ws generalizing k with
  | nil => simp [leBytes]
  | cons w ws ih =>
    rw [leBytes]
    by_cases hk : k < 4
    · rw [List.getElem?_append_left hk, wordBytes_getElem? w hk, Nat.div_eq_of_lt hk, Nat.mod_eq_of_lt hk]
      rfl
    · obtain ⟨j, rfl⟩ : ∃ j, k = j + 4 := ⟨k - 4, by omega⟩
      rw [List.getElem?_append_right (by simp), wordBytes_length, Nat.add_sub_cancel, ih, Nat.add_mod_right,
        Nat.add_div_right j (by decide), List.getElem?_cons_succ]

/-- Byte k of a register file of words. -/
theorem leBytes_toList_getElem? {n : Nat} (ws : Vector Word n) {k : Nat} (hk : k / 4 < n) :
    (leBytes ws.toList)[k]? = some (ws[k / 4].extractLsb' (8 * (k % 4)) 8) := by
  rw [leBytes_getElem?, Vector.getElem?_toList, Vector.getElem?_eq_getElem hk]
  rfl

/-! #### Reads after writes of places -/

@[simp] theorem State.readTarget_response (s : State) (r : Response) (tg : Target) :
    State.readTarget { s with response := r } tg = s.readTarget tg := by
  cases tg <;> rfl

/-- A writable place but CMD holds what is written to it. -/
theorem State.readTarget_writeTarget_same (s : State) (v : Word) {tg : Target} (hw : tg.writable = true)
    (hcmd : tg ≠ .cmd) : (s.writeTarget v tg).readTarget tg = v := by
  cases tg with
  | cmd => exact absurd rfl hcmd
  | keyLen | ivLen | msgLen => rfl
  | key n => exact Vector.getElem_set_self n.isLt
  | iv n => exact Vector.getElem_set_self n.isLt
  | inBuf o => exact s.wordAt_store_same (inBase + o) v
  | _ => cases hw

/-- A store of a word of IN_BUF is read at no other place: the windows and the words of one window lie apart. -/
theorem State.readTarget_writeInBuf_ne (s : State) (v : Word) (hmax : s.params.bufBytes ≤ 16384) {o : Nat} {tg : Target}
    (hne : tg ≠ .inBuf o) (hr : o < s.params.bufBytes) (ha : (Target.inBuf o).address % 4 = 0)
    (hr' : tg.InRange s.params.bufBytes) (ha' : tg.address % 4 = 0) :
    (s.writeTarget v (.inBuf o)).readTarget tg = s.readTarget tg := by
  have hS : sBase + 4 * Config.tMax ≤ inBase := by decide
  have hI : inBase = 16384 := rfl
  have hO : outBase = inBase + 16384 := rfl
  cases tg with
  | subkey k =>
    have hk : k < Config.tMax := hr'
    exact s.wordAt_store_apart v (.inl (by omega))
  | inBuf p =>
    have hpo : p ≠ o := fun h => hne (congrArg _ h)
    simp only [Target.address] at ha ha'
    exact s.wordAt_store_apart v (by omega)
  | outBuf p =>
    simp only [Target.address] at ha
    exact s.wordAt_store_apart v (.inr (by omega))
  | _ => rfl

/-- A write of a place but CMD changes what no other place reads. -/
theorem State.readTarget_writeTarget_ne (s : State) (v : Word) (hp : s.params.Legal) {tg tg' : Target} (hne : tg' ≠ tg)
    (hcmd : tg ≠ .cmd) (hr : tg.InRange s.params.bufBytes) (hr' : tg'.InRange s.params.bufBytes)
    (ha : tg.address % 4 = 0) (ha' : tg'.address % 4 = 0) :
    (s.writeTarget v tg).readTarget tg' = s.readTarget tg' := by
  obtain ⟨-, -, hmax, -⟩ := hp
  cases tg with
  | cmd => exact absurd rfl hcmd
  | keyLen =>
    cases tg' with
    | keyLen => exact absurd rfl hne
    | _ => rfl
  | ivLen =>
    cases tg' with
    | ivLen => exact absurd rfl hne
    | _ => rfl
  | msgLen =>
    cases tg' with
    | msgLen => exact absurd rfl hne
    | _ => rfl
  | key n =>
    cases tg' with
    | key m => exact Vector.getElem_set_ne n.isLt m.isLt fun h => hne (congrArg _ (Fin.ext h.symm))
    | _ => rfl
  | iv n =>
    cases tg' with
    | iv m => exact Vector.getElem_set_ne n.isLt m.isLt fun h => hne (congrArg _ (Fin.ext h.symm))
    | _ => rfl
  | inBuf o => exact s.readTarget_writeInBuf_ne v hmax hne hr ha hr' ha'
  | status | config | outLen | subkeyCount | subkey | outBuf => rfl

/-- A write of a place but CMD leaves BUSY. -/
theorem State.writeTarget_busy (s : State) (v : Word) {tg : Target} (hcmd : tg ≠ .cmd) :
    (s.writeTarget v tg).busy = s.busy := by
  cases tg with
  | cmd => exact absurd rfl hcmd
  | _ => rfl

/-- A read while IDLE is answered with the word of the place, or with the error response where there is none. -/
theorem hostAccess_read_response {s : State} (hidle : s.busy = false) (a : BitVec 16) (x : Word) :
    (s.hostAccess { we := false, addr := a, wdata := x }).response =
      (targetOf s.params.bufBytes a).elim .error fun tg => .read (s.readTarget tg) := by
  cases h : targetOf s.params.bufBytes a with
  | none => rw [hostAccess_unmapped h]; rfl
  | some tg => rw [hostAccess_read h (.inl hidle)]; rfl

/-- A write answered normally while IDLE is the write of a writable place. -/
theorem hostAccess_written {s : State} (hidle : s.busy = false) {a : BitVec 16} {v : Word}
    (h : (s.hostAccess { we := true, addr := a, wdata := v }).response = .written) :
    ∃ tg, targetOf s.params.bufBytes a = some tg ∧ tg.writable = true ∧
      s.hostAccess { we := true, addr := a, wdata := v } = { s.writeTarget v tg with response := .written } := by
  have hc := hostAccess_cases s { we := true, addr := a, wdata := v }
  generalize s.hostAccess { we := true, addr := a, wdata := v } = t at hc h ⊢
  cases hc with
  | error => cases h
  | dropped _ hbusy => exact absurd hidle (by simp [hbusy])
  | wrote tg _ _ htg hw => exact ⟨tg, htg, hw, rfl⟩
  | drew hwe => cases hwe
  | read _ hwe => cases hwe

end Sys2Proof.Machine

namespace Sys2Proof.Proofs

open Sys2Proof.Machine

/-- Settles O22: a word of RAM and a register are determined by their lanes. -/
theorem byteLanesAreLittleEndian : Obligations.ByteLanesAreLittleEndian := by
  refine ⟨fun s q v hp hidle hq => ?_, fun s q x hp hidle hq => ?_, fun s k hk => ?_, fun s k => ?_⟩
  · have ha : (Target.inBuf (4 * q)).address % 4 = 0 := by simp only [Target.address, inBase]; omega
    exact ⟨_, hostAccess_write_place (tg := .inBuf (4 * q)) hp hidle hq ha rfl v,
      fun i hi => s.byteAt_store_lane (inBase + 4 * q) v hi, fun a hout => s.byteAt_store_apart v hout, rfl⟩
  · have ha : (Target.outBuf (4 * q)).address % 4 = 0 := by simp only [Target.address, outBase]; omega
    exact ⟨_, hostAccess_read_place (tg := .outBuf (4 * q)) hp hidle hq ha x, fun i hi => s.wordAt_lane _ hi⟩
  · rw [State.keyBytes, List.getElem?_take_of_lt hk]
    exact leBytes_toList_getElem? s.key (by omega)
  · exact leBytes_toList_getElem? s.iv (by omega)

/-- Settles O21: two addresses name one place or two apart, and a write of one leaves the engine IDLE. -/
theorem readReturnsLastWrite : Obligations.ReadReturnsLastWrite := by
  intro s a b v x hp hidle hcmd hwritten
  obtain ⟨tg, htg, hw, heq⟩ := hostAccess_written hidle hwritten
  obtain ⟨ha, haddr, hr⟩ := targetOf_spec htg
  have hne : tg ≠ .cmd := by
    rintro rfl
    exact hcmd (BitVec.eq_of_toNat_eq haddr.symm)
  have hparams : (s.writeTarget v tg).params = s.params := (writeTarget_kept s v tg).params
  have hidle' : State.busy { s.writeTarget v tg with response := .written } = false :=
    (s.writeTarget_busy v hne).trans hidle
  rw [heq, hostAccess_read_response hidle', hostAccess_read_response hidle]
  simp only [State.readTarget_response]
  rw [hparams]
  by_cases hba : b = a
  · rw [if_pos hba, hba, htg, Option.elim_some, s.readTarget_writeTarget_same v hw hne]
  · rw [if_neg hba]
    cases htg' : targetOf s.params.bufBytes b with
    | none => rfl
    | some tg' =>
      obtain ⟨hb, hbddr, hr'⟩ := targetOf_spec htg'
      have hapart : tg' ≠ tg := by
        rintro rfl
        exact hba (BitVec.eq_of_toNat_eq (hbddr.symm.trans haddr))
      rw [Option.elim_some, Option.elim_some,
        s.readTarget_writeTarget_ne v hp hapart hne hr hr' (haddr ▸ ha) (hbddr ▸ hb)]

end Sys2Proof.Proofs

/-! ### The bus while a command runs, and the handshake -/

namespace Sys2Proof.Machine

/-! #### The sequencer never stops the step -/

/-- What the sequencer's part of an edge leaves: the bus (20_memory.md R50). -/
structure KeptBySequencer (s t : State) : Prop where
  pending  : t.pending = s.pending
  response : t.response = s.response
  inputs   : t.inputs = s.inputs

/-- The sequencer answers a next state at every edge, whatever it was before. -/
theorem sequencerEdge_next (before : Sequencer) (s : State) :
    ∃ t, sequencerEdge before s = .next t ∧ KeptBySequencer s t := by
  unfold sequencerEdge
  split
  · exact ⟨s, rfl, rfl, rfl, rfl⟩
  · exact ⟨_, rfl, rfl, rfl, rfl⟩
  · next w =>
    obtain ⟨t, hrun, hleft⟩ := runCommandWord_next w s
    exact ⟨t, hrun, hleft.pending, hleft.response, hleft.inputs⟩

/-- An edge outside reset whose bus answers is a next state with the bus as it answered. -/
theorem step_of_bus {s s' : State} (hrst : s.pinsNow.rstN = true) (hbus : busEdge s.pinsNow s.takePins = .ok s') :
    ∃ t, step s = .next t ∧ KeptBySequencer s' t := by
  obtain ⟨t, hseq, hkept⟩ := sequencerEdge_next s.seq s'
  exact ⟨t, by simp only [step, clockEdge, hrst, if_true, hbus, State.takePins_seq, hseq], hkept⟩

/-- An edge outside reset whose bus stops is a fault. -/
theorem step_of_bus_error {s : State} {f : Fault} (hrst : s.pinsNow.rstN = true)
    (hbus : busEdge s.pinsNow s.takePins = .error f) : step s = .fault f := by
  simp only [step, clockEdge, hrst, if_true, hbus]

theorem step_of_reset {s : State} (hrst : s.pinsNow.rstN = false) : step s = .next (s.takePins.resetEdge s.pinsNow) := by
  simp only [step, clockEdge, hrst, Bool.false_eq_true, if_false]

/-- A step answers a next state, or stops as the bus does. -/
theorem step_answers (s : State) :
    (∃ t, step s = .next t) ∨
      ∃ f, step s = .fault f ∧ s.pinsNow.rstN = true ∧ busEdge s.pinsNow s.takePins = .error f := by
  cases hrst : s.pinsNow.rstN with
  | false => exact .inl ⟨_, step_of_reset hrst⟩
  | true =>
    cases hbus : busEdge s.pinsNow s.takePins with
    | error f => exact .inr ⟨f, step_of_bus_error hrst hbus, rfl, rfl⟩
    | ok s' =>
      obtain ⟨t, hstep, -⟩ := step_of_bus hrst hbus
      exact .inl ⟨t, hstep⟩

theorem step_fault_iff (s : State) (f : Fault) :
    step s = .fault f ↔ s.pinsNow.rstN = true ∧ busEdge s.pinsNow s.takePins = .error f := by
  refine ⟨fun h => ?_, fun ⟨hrst, hbus⟩ => step_of_bus_error hrst hbus⟩
  obtain ⟨t, hstep⟩ | ⟨f', hstep, hstop⟩ := step_answers s
  · cases hstep.symm.trans h
  · cases hstep.symm.trans h
    exact hstop

theorem step_ne_refused (s : State) (r : Refusal) : step s ≠ .refused r := by
  intro h
  obtain ⟨t, hstep⟩ | ⟨f, hstep, -⟩ := step_answers s <;> cases hstep.symm.trans h

/-! #### The bus at an edge -/

theorem busEdge_of_none {s : State} (p : Pins) (h : s.pending = none) :
    busEdge p s = .ok { s with pending := p.request, response := .noAck } := by
  rw [busEdge, h]

theorem busEdge_of_held {s : State} {p : Pins} {q : BusReq} (h : s.pending = some q) (hh : p.holds q = true) :
    busEdge p s = .ok ({ s with pending := none }.hostAccess q) := by
  simp only [busEdge, h, hh, if_true]

theorem busEdge_of_broken {s : State} {p : Pins} {q : BusReq} (h : s.pending = some q) (hh : p.holds q = false) :
    busEdge p s = .error .hostProtocolViolation := by
  simp only [busEdge, h, hh, Bool.false_eq_true, if_false]

/-- The bus stops exactly at a request that is not held. -/
theorem busEdge_error_iff (p : Pins) (s : State) :
    busEdge p s = .error .hostProtocolViolation ↔ ∃ q, s.pending = some q ∧ p.holds q = false := by
  constructor
  · intro h
    cases hq : s.pending with
    | none => rw [busEdge_of_none p hq] at h; cases h
    | some q =>
      refine ⟨q, rfl, Bool.eq_false_iff.2 fun hh => ?_⟩
      rw [busEdge_of_held hq hh] at h
      cases h
  · rintro ⟨q, hq, hh⟩
    exact busEdge_of_broken hq hh

/-- A request is not held exactly when one of its four signals has changed (20_memory.md R50). -/
theorem Pins.holds_eq_false_iff (p : Pins) (q : BusReq) :
    p.holds q = false ↔ p.req = false ∨ p.we ≠ q.we ∨ p.addr ≠ q.addr ∨ p.wdata ≠ q.wdata := by
  rw [← Bool.not_eq_true, p.holds_iff q, not_and_or, not_and_or, not_and_or, Bool.not_eq_true]

/-- What a transaction leaves of the bus, and that it is always answered. -/
theorem AccessCase.bus {s t : State} {q : BusReq} (h : AccessCase s q t) :
    t.response ≠ .noAck ∧ t.pending = s.pending ∧ t.inputs = s.inputs := by
  cases h with
  | wrote tg => cases tg <;> exact ⟨Response.noConfusion, rfl, rfl⟩
  | _ => exact ⟨Response.noConfusion, rfl, rfl⟩

/-- While a command runs, a write that is not an error is dropped (20_memory.md R61 (a)). -/
theorem hostAccess_busy_write {s : State} {q : BusReq} (hbusy : s.busy = true) (hwe : q.we = true)
    (hok : (s.hostAccess q).response ≠ .error) : s.hostAccess q = s.dropWrite := by
  have hc := hostAccess_cases s q
  generalize s.hostAccess q = t at hc hok ⊢
  cases hc with
  | error => exact absurd rfl hok
  | dropped => rfl
  | wrote _ _ hidle => simp [hbusy] at hidle
  | drew hread => simp [hwe] at hread
  | read _ hread => simp [hwe] at hread

/-- While a command runs, a read of anything but STATUS that is not an error is a draw (20_memory.md R61 (c)). -/
theorem hostAccess_busy_read {s : State} {q : BusReq} (hbusy : s.busy = true) (hwe : q.we = false)
    (hne : q.addr ≠ 0x0004) (hok : (s.hostAccess q).response ≠ .error) : s.hostAccess q = s.drawRead := by
  have hc := hostAccess_cases s q
  generalize s.hostAccess q = t at hc hok ⊢
  cases hc with
  | error => exact absurd rfl hok
  | dropped hwrite => simp [hwe] at hwrite
  | wrote _ hwrite => simp [hwe] at hwrite
  | drew => rfl
  | read tg _ htg honly =>
    obtain ⟨-, haddr, -⟩ := targetOf_spec htg
    rw [honly hbusy] at haddr
    exact absurd (BitVec.eq_of_toNat_eq haddr.symm) hne

theorem Pins.request_of_req {p : Pins} (h : p.req = true) :
    p.request = some { we := p.we, addr := p.addr, wdata := p.wdata } := by
  rw [Pins.request, if_pos h]

end Sys2Proof.Machine

namespace Sys2Proof.Proofs

open Sys2Proof.Machine

/-- Settles O17: the step stops exactly where the bus does, which is at a request that is not held. -/
theorem onlyProtocolViolationStops : Obligations.OnlyProtocolViolationStops := by
  refine ⟨fun s => ?_, step_ne_refused⟩
  simp only [← Pins.holds_eq_false_iff]
  rw [step_fault_iff, busEdge_error_iff, State.takePins_pending]

/-- Settles O16: the bus sees the request at the first edge and, since it is held, completes it at the second; the
sequencer touches neither. -/
theorem busHandshake : Obligations.BusHandshake := by
  intro s p ps hin hrst hreq hnone
  have hpins : s.pinsNow = p := by rw [State.pinsNow, hin]; rfl
  obtain ⟨t, hstep, hpend, hresp, hleft⟩ :=
    step_of_bus (hpins ▸ hrst) (busEdge_of_none (s := s.takePins) s.pinsNow hnone)
  simp only [hpins, State.takePins_inputs, hin, List.tail_cons, p.request_of_req hreq] at hpend hresp hleft
  have hpins' : t.pinsNow = p := by rw [State.pinsNow, hleft]; rfl
  have hheld : t.pinsNow.holds { we := p.we, addr := p.addr, wdata := p.wdata } = true := by
    rw [Pins.holds_iff, hpins']
    exact ⟨hreq, rfl, rfl, rfl⟩
  obtain ⟨u, hstep', hpend', hresp', hleft'⟩ :=
    step_of_bus (hpins' ▸ hrst) (busEdge_of_held (s := t.takePins) hpend hheld)
  obtain ⟨hack, hfree, hkept⟩ := (hostAccess_cases { t.takePins with pending := none } _).bus
  refine ⟨t, u, hstep, hresp, by simp [hpend], hstep', hresp' ▸ hack, hpend'.trans hfree, ?_⟩
  rw [hleft', hkept, State.takePins_inputs, hleft, List.tail_cons]

/-- Settles O20: while a command runs a transaction is an error, a dropped write, a draw, or a read of STATUS. -/
theorem accessWhileBusy : Obligations.AccessWhileBusy := by
  intro s q w n hinv hseq hok
  have hbusy : s.busy = true := by simp [State.busy, hseq, Sequencer.isRunning]
  obtain ⟨-, hop, hdetail⟩ := hinv.running w n hseq
  have hresult : s.status.result = .ok := by rw [hinv.result, hdetail]; rfl
  obtain ⟨hbit, -, -, -, hres, hdet, hlast, -⟩ := statusWord_fields s
  refine ⟨fun hwe => hostAccess_busy_write hbusy hwe hok, fun hwe haddr => ?_,
    fun hwe hne => ⟨_, hostAccess_busy_read hbusy hwe hne hok⟩⟩
  obtain ⟨we, addr, wdata⟩ := q
  cases hwe
  cases haddr
  exact ⟨s.statusWord, hostAccess_read (tg := .status) rfl (.inr rfl), rfl, hbit.trans hbusy,
    hres.trans (congrArg _ hresult), hdet.trans (congrArg _ hdetail), hlast.trans hop⟩

end Sys2Proof.Proofs

/-! ### A command is one transition -/

namespace Sys2Proof.Machine

/-! #### What the host's traffic can change while a command runs -/

/-- The state of the bus, the host and the sequencer, with the bit in which a dropped write is recorded. -/
structure Traffic where
  wrIgnored : Bool
  seq       : Sequencer
  pending   : Option BusReq
  response  : Response
  inputs    : List Pins
  draws     : Nat

def State.traffic (s : State) : Traffic :=
  { wrIgnored := s.status.wrIgnored, seq := s.seq, pending := s.pending, response := s.response, inputs := s.inputs,
    draws := s.draws }

/-- The state with other traffic. -/
def State.withTraffic (s : State) (x : Traffic) : State :=
  { s with
    status := { s.status with wrIgnored := x.wrIgnored }
    seq := x.seq, pending := x.pending, response := x.response, inputs := x.inputs, draws := x.draws }

/-- Two states agree but for the traffic. -/
def SameButTraffic (s t : State) : Prop := t = s.withTraffic t.traffic

theorem SameButTraffic.trans {s t u : State} (h : SameButTraffic s t) (h' : SameButTraffic t u) : SameButTraffic s u := by
  have hagain : t.withTraffic u.traffic = (s.withTraffic t.traffic).withTraffic u.traffic :=
    congrArg (fun r : State => r.withTraffic u.traffic) h
  exact Eq.trans h' hagain

/-- Two outcomes are next states that agree but for the traffic. -/
def SameOutcomeButTraffic (o o' : Host.Outcome State Fault Refusal) : Prop :=
  ∃ t t', o = .next t ∧ o' = .next t' ∧ SameButTraffic t t'

/-! #### No command reads the traffic -/

section

variable (s : State) (x : Traffic)

theorem execSetRounds_withTraffic (imm : Nat) :
    SameOutcomeButTraffic (execSetRounds imm s) (execSetRounds imm (s.withTraffic x)) := by
  unfold execSetRounds
  split
  · exact ⟨_, _, rfl, rfl, rfl⟩
  · exact ⟨_, _, rfl, rfl, rfl⟩

theorem execSetBlock_withTraffic (imm : Nat) :
    SameOutcomeButTraffic (execSetBlock imm s) (execSetBlock imm (s.withTraffic x)) := by
  unfold execSetBlock
  split
  · exact ⟨_, _, rfl, rfl, rfl⟩
  · exact ⟨_, _, rfl, rfl, rfl⟩

theorem execExpandKey_withTraffic : SameOutcomeButTraffic (execExpandKey s) (execExpandKey (s.withTraffic x)) := by
  unfold execExpandKey
  rw [show (s.withTraffic x).cipherChecks = s.cipherChecks from rfl]
  cases s.cipherChecks with
  | some d => exact ⟨_, _, rfl, rfl, rfl⟩
  | none => exact ⟨_, _, rfl, rfl, rfl⟩

theorem blockCommand_withTraffic (f : List Word → Nat → List Byte → Work) :
    SameOutcomeButTraffic (blockCommand f s) (blockCommand f (s.withTraffic x)) := by
  unfold blockCommand
  rw [show (s.withTraffic x).cipherChecks = s.cipherChecks from rfl]
  cases s.cipherChecks with
  | some d => exact ⟨_, _, rfl, rfl, rfl⟩
  | none => exact ⟨_, _, rfl, rfl, rfl⟩

theorem execEncryptMsg_withTraffic : SameOutcomeButTraffic (execEncryptMsg s) (execEncryptMsg (s.withTraffic x)) := by
  unfold execEncryptMsg
  rw [show (s.withTraffic x).encryptChecks = s.encryptChecks from rfl]
  cases s.encryptChecks with
  | some d => exact ⟨_, _, rfl, rfl, rfl⟩
  | none => exact ⟨_, _, rfl, rfl, rfl⟩

theorem execDecryptMsg_withTraffic : SameOutcomeButTraffic (execDecryptMsg s) (execDecryptMsg (s.withTraffic x)) := by
  unfold execDecryptMsg
  rw [show (s.withTraffic x).decryptChecks = s.decryptChecks from rfl]
  cases s.decryptChecks with
  | some d => exact ⟨_, _, rfl, rfl, rfl⟩
  | none =>
    dsimp only
    rw [show pcbcDecRun (s.withTraffic x).subkeys (s.withTraffic x).rounds (s.withTraffic x).message
        (s.withTraffic x).ivBytes (s.withTraffic x).work = pcbcDecRun s.subkeys s.rounds s.message s.ivBytes s.work from rfl,
      show (s.withTraffic x).blockSize = s.blockSize from rfl]
    cases padCount s.blockSize (pcbcDecRun s.subkeys s.rounds s.message s.ivBytes s.work).out with
    | error d => exact ⟨_, _, rfl, rfl, rfl⟩
    | ok n => exact ⟨_, _, rfl, rfl, rfl⟩

theorem execPad_withTraffic : SameOutcomeButTraffic (execPad s) (execPad (s.withTraffic x)) := by
  unfold execPad
  rw [show (s.withTraffic x).padChecks = s.padChecks from rfl]
  cases s.padChecks with
  | some d => exact ⟨_, _, rfl, rfl, rfl⟩
  | none => exact ⟨_, _, rfl, rfl, rfl⟩

theorem execUnpad_withTraffic : SameOutcomeButTraffic (execUnpad s) (execUnpad (s.withTraffic x)) := by
  unfold execUnpad
  rw [show (s.withTraffic x).unpadChecks = s.unpadChecks from rfl,
    show padCount (s.withTraffic x).blockSize (s.withTraffic x).message = padCount s.blockSize s.message from rfl]
  cases s.unpadChecks with
  | some d => exact ⟨_, _, rfl, rfl, rfl⟩
  | none =>
    cases padCount s.blockSize s.message with
    | error d => exact ⟨_, _, rfl, rfl, rfl⟩
    | ok n => exact ⟨_, _, rfl, rfl, rfl⟩

theorem exec_withTraffic (i : Instr) : SameOutcomeButTraffic (exec i s) (exec i (s.withTraffic x)) := by
  cases i with
  | nop => exact ⟨_, _, rfl, rfl, rfl⟩
  | setRounds imm => exact execSetRounds_withTraffic s x imm
  | setBlock imm => exact execSetBlock_withTraffic s x imm
  | clearStatus => exact ⟨_, _, rfl, rfl, rfl⟩
  | expandKey => exact execExpandKey_withTraffic s x
  | blockEnc => exact blockCommand_withTraffic s x encWork
  | blockDec => exact blockCommand_withTraffic s x decWork
  | encryptMsg => exact execEncryptMsg_withTraffic s x
  | decryptMsg => exact execDecryptMsg_withTraffic s x
  | pad => exact execPad_withTraffic s x
  | unpad => exact execUnpad_withTraffic s x

theorem runCommandWord_withTraffic (w : Word) :
    SameOutcomeButTraffic (runCommandWord w s) (runCommandWord w (s.withTraffic x)) := by
  unfold runCommandWord
  split
  · exact exec_withTraffic s x _
  · exact ⟨_, _, rfl, rfl, rfl⟩

end

/-! #### The edges of a running command -/

/-- While a command runs a transaction changes the traffic alone, and takes no pins (20_memory.md R61). -/
theorem AccessCase.sameButTraffic {s t : State} {q : BusReq} (h : AccessCase s q t) (hbusy : s.busy = true) :
    SameButTraffic s t ∧ t.inputs = s.inputs := by
  cases h with
  | wrote _ _ hidle => simp [hbusy] at hidle
  | _ => exact ⟨rfl, rfl⟩

theorem busEdge_sameButTraffic {p : Pins} {s t : State} (hbusy : s.busy = true) (h : busEdge p s = .ok t) :
    SameButTraffic s t ∧ t.inputs = s.inputs := by
  obtain ⟨-, rfl⟩ | ⟨q, -, -, rfl⟩ := busEdge_cases h
  · exact ⟨rfl, rfl⟩
  · obtain ⟨hsame, hinputs⟩ := (hostAccess_cases { s with pending := none } q).sameButTraffic hbusy
    exact ⟨SameButTraffic.trans (t := { s with pending := none }) rfl hsame, hinputs⟩

/-- An edge outside reset while a command runs: the count goes down, or the command completes, and all else is traffic. -/
theorem step_of_running {s t : State} {w : Word} {n : Nat} (hseq : s.seq = .running w n) (hrst : s.pinsNow.rstN = true)
    (h : step s = .next t) :
    ∃ s', SameButTraffic s s' ∧ s'.inputs = s.inputs.tail ∧
      ((∃ m, n = m + 1 ∧ t = { s' with seq := .running w m }) ∨ (n = 0 ∧ runCommandWord w s' = .next t)) := by
  obtain ⟨hreset, -⟩ | ⟨s', -, hbus, hedge⟩ := step_cases h
  · simp [hrst] at hreset
  have hbusy : s.takePins.busy = true := by simp [State.busy, hseq, Sequencer.isRunning]
  obtain ⟨hsame, hinputs⟩ := busEdge_sameButTraffic hbusy hbus
  refine ⟨s', SameButTraffic.trans (t := s.takePins) rfl hsame, hinputs, ?_⟩
  rw [hseq] at hedge
  obtain ⟨hidle, -⟩ | ⟨w', m, heq, rfl⟩ | ⟨w', heq, hrun⟩ := hedge
  · cases hidle
  · cases heq
    exact .inl ⟨m, rfl, rfl⟩
  · cases heq
    exact .inr ⟨rfl, hrun⟩

/-- No reset on the listed pins means none at the next edge: past the list the host is silent. -/
theorem State.rstN_pinsNow {s : State} {n : Nat} (h : ∀ p ∈ s.inputs.take (n + 1), p.rstN = true) :
    s.pinsNow.rstN = true := by
  unfold State.pinsNow
  cases hin : s.inputs with
  | nil => rfl
  | cons p ps => exact h p (by simp [hin])

/-- A run that answers takes a first step and goes on from there. -/
theorem run_succ {M : Host.Core} {k : Nat} {s t : M.State} (h : M.run (k + 1) s = .next t) :
    ∃ s', M.step s = .next s' ∧ M.run k s' = .next t := by
  unfold Host.Core.run at h
  split at h
  · exact ⟨_, ‹_›, h⟩
  · cases h
  · cases h

/-- A run over the edges of a command, short of reset, is the completion of the command at a state that differs from the
first by traffic. -/
theorem run_of_running {w : Word} {n : Nat} {s t : State} (hseq : s.seq = .running w n)
    (hrst : ∀ p ∈ s.inputs.take (n + 1), p.rstN = true) (h : Host.Core.run Sys2Proof.core (n + 1) s = .next t) :
    ∃ s', SameButTraffic s s' ∧ runCommandWord w s' = .next t := by
  induction n generalizing s with
  | zero =>
    obtain ⟨t', hstep, hrest⟩ := run_succ (M := Sys2Proof.core) h
    cases hrest
    obtain ⟨s', hsame, -, ⟨m, hm, -⟩ | ⟨-, hrun⟩⟩ := step_of_running hseq (State.rstN_pinsNow hrst) hstep
    · cases hm
    · exact ⟨s', hsame, hrun⟩
  | succ n ih =>
    obtain ⟨t', hstep, hrest⟩ := run_succ (M := Sys2Proof.core) h
    obtain ⟨s', hsame, hinputs, ⟨m, hm, rfl⟩ | ⟨hzero, -⟩⟩ := step_of_running hseq (State.rstN_pinsNow hrst) hstep
    · cases hm
      have hrst' : ∀ p ∈ s'.inputs.take (n + 1), p.rstN = true := fun p hp =>
        hrst p (List.mem_of_mem_tail (by rwa [List.tail_take_eq_take_tail, Nat.add_sub_cancel, ← hinputs]))
      obtain ⟨s'', hsame', hrun⟩ := ih (s := { s' with seq := .running w n }) rfl hrst' hrest
      exact ⟨s'', (hsame.trans (u := { s' with seq := .running w n }) rfl).trans hsame', hrun⟩
    · cases hzero

end Sys2Proof.Machine

namespace Sys2Proof.Proofs

open Sys2Proof.Machine

/-- Settles O14: by induction on the edges left, each changes the traffic alone, which no command reads. -/
theorem commandIsOneTransition : Obligations.CommandIsOneTransition := by
  intro s t w n hseq hrst hrun
  obtain ⟨s', hsame, hdone⟩ := run_of_running hseq hrst hrun
  obtain ⟨u, t', hu, ht', huts⟩ := runCommandWord_withTraffic s s'.traffic w
  obtain rfl : t = t' := by
    rw [← hsame, hdone] at ht'
    cases ht'
    rfl
  obtain ⟨_, hu', hleftU⟩ := runCommandWord_next w s
  obtain ⟨_, ht', hleftT⟩ := runCommandWord_next w s'
  cases hu.symm.trans hu'
  cases hdone.symm.trans ht'
  refine ⟨u, hu, hleftT.seq, Eq.trans huts ?_⟩
  simp only [State.withTraffic, State.traffic, hleftT.seq, hleftU.seq]

end Sys2Proof.Proofs

/-! ### The decoder against the encoder and the opcode map -/

namespace Sys2Proof.Machine

theorem opField_toNat (w : Word) : (opField w).toNat = w.toNat % 256 := by
  simp [opField, BitVec.extractLsb'_toNat]

theorem argField_toNat (w : Word) : (argField w).toNat = w.toNat / 256 := by
  have hlt : w.toNat / 256 < 2 ^ 24 := Nat.div_lt_of_lt_mul w.isLt
  rw [argField, BitVec.extractLsb'_toNat, Nat.shiftRight_eq_div_pow, Nat.mod_eq_of_lt hlt]

/-- A word is its ARG above its OP (30_encoding.md R70). -/
theorem argField_append_opField (w : Word) : argField w ++ opField w = w := by
  apply BitVec.eq_of_toNat_eq
  rw [BitVec.toNat_append, ← Nat.shiftLeft_add_eq_or_of_lt (opField w).isLt, Nat.shiftLeft_eq, opField_toNat,
    argField_toNat]
  exact Nat.div_add_mod' w.toNat 256

/-- A command is well formed exactly when its argument fits the 24 bits of ARG. -/
theorem wellFormed_iff_argument_lt (i : Instr) : i.wellFormed = true ↔ i.argument < 2 ^ 24 := by
  cases i with
  | setRounds imm => exact decide_eq_true_iff
  | setBlock imm => exact decide_eq_true_iff
  | _ => exact iff_of_true rfl (by decide)

/-- A word that holds the opcode and the argument of a command is the word of that command. -/
theorem encode_of_fields {w : Word} {i : Instr} (hop : opField w = i.opcode)
    (harg : (argField w).toNat = i.argument) : encode i = w := by
  rw [encode, ← hop, ← harg, BitVec.ofNat_toNat, BitVec.setWidth_eq, argField_append_opField]

/-- The encoder in arithmetic: ARG times 256 plus OP. -/
theorem encode_eq_ofNat {i : Instr} (h : i.wellFormed = true) :
    encode i = BitVec.ofNat 32 (i.argument * 256 + i.opcode.toNat) := by
  obtain ⟨hop, harg⟩ := encode_fields i h
  rw [← hop, ← harg, opField_toNat, argField_toNat, Nat.div_add_mod', BitVec.ofNat_toNat, BitVec.setWidth_eq]

/-- The OP values that R73 leaves free (30_encoding.md R75). -/
def ReservedOpcode (op : Nat) : Prop :=
  (0x04 ≤ op ∧ op ≤ 0x0F) ∨ (0x13 ≤ op ∧ op ≤ 0x1F) ∨ (0x22 ≤ op ∧ op ≤ 0x2F) ∨ (0x32 ≤ op ∧ op ≤ 0xFF)

/-- The OP values of the commands without an argument (30_encoding.md R71, R73). -/
def FormatNOpcode (op : Nat) : Prop :=
  op ∈ [0x00, 0x03, 0x10, 0x11, 0x12, 0x20, 0x21, 0x30, 0x31]

/-- The reserved opcodes are the OP values outside the opcode map of R73. -/
theorem reservedOpcode_iff_not_mapped (op : BitVec 8) :
    ReservedOpcode op.toNat ↔ ¬ (FormatNOpcode op.toNat ∨ op.toNat = 0x01 ∨ op.toNat = 0x02) := by
  have hlt := op.isLt
  simp only [ReservedOpcode, FormatNOpcode, List.mem_cons, List.not_mem_nil, or_false]
  omega

/-- The opcode of every command is in the opcode map. -/
theorem opcode_mapped (i : Instr) :
    FormatNOpcode i.opcode.toNat ∨ i.opcode.toNat = 0x01 ∨ i.opcode.toNat = 0x02 := by
  cases i with
  | setRounds imm => exact .inr (.inl rfl)
  | setBlock imm => exact .inr (.inr rfl)
  | _ => exact .inl (by unfold FormatNOpcode; decide)

theorem argument_eq_zero_of_formatNOpcode {i : Instr} (h : FormatNOpcode i.opcode.toNat) : i.argument = 0 := by
  cases i with
  | setRounds imm => simp [FormatNOpcode, Instr.opcode] at h
  | setBlock imm => simp [FormatNOpcode, Instr.opcode] at h
  | _ => rfl

/-- What the fields of a word say of each outcome of decoding it (30_encoding.md R74). -/
inductive DecodesTo (w : Word) : Except DecodeError Instr → Prop
  | command {i : Instr} (hop : opField w = i.opcode) (harg : (argField w).toNat = i.argument) : DecodesTo w (.ok i)
  | nonzeroArg (hop : FormatNOpcode (opField w).toNat) (harg : argField w ≠ 0) : DecodesTo w (.error .nonzeroArg)
  | unknownOpcode (hop : ReservedOpcode (opField w).toNat) : DecodesTo w (.error .unknownOpcode)

/-- A word with a format-N opcode is its command or has an argument too many. -/
theorem decodesTo_formatN {w : Word} {i : Instr} (hop : (opField w).toNat = i.opcode.toNat) (hi : i.argument = 0)
    (hN : FormatNOpcode i.opcode.toNat) : DecodesTo w (formatN i (argField w)) := by
  unfold formatN
  split
  · next harg => exact .command (BitVec.eq_of_toNat_eq hop) (by rw [harg, hi]; rfl)
  · next harg => exact .nonzeroArg (hop ▸ hN) harg

/-- The decoder, one row of R73 at a time: the two format-I rows, the unmapped rest, and the format-N rows. -/
theorem decodesTo_decode (w : Word) : DecodesTo w (decode w) := by
  unfold decode
  split
  case h_2 hop => exact .command (BitVec.eq_of_toNat_eq hop) rfl
  case h_3 hop => exact .command (BitVec.eq_of_toNat_eq hop) rfl
  case h_12 => exact .unknownOpcode ((reservedOpcode_iff_not_mapped _).2 (by simp_all [FormatNOpcode]))
  all_goals exact decodesTo_formatN ‹_› rfl (by unfold FormatNOpcode; decide)

/-- The conditions of the three outcomes exclude each other, so the fields of a word determine how it decodes. -/
theorem decode_eq_iff (w : Word) (r : Except DecodeError Instr) : decode w = r ↔ DecodesTo w r := by
  refine ⟨fun h => h ▸ decodesTo_decode w, fun h => ?_⟩
  have hdec := decodesTo_decode w
  cases h with
  | command hop harg => exact decode_of_fields hop harg
  | nonzeroArg hop harg =>
    generalize decode w = r at hdec
    cases hdec with
    | command hop' harg' =>
      have hzero := harg'.trans (argument_eq_zero_of_formatNOpcode (hop' ▸ hop))
      exact absurd (BitVec.eq_of_toNat_eq hzero) harg
    | nonzeroArg => rfl
    | unknownOpcode hres => exact absurd (.inl hop) ((reservedOpcode_iff_not_mapped _).1 hres)
  | unknownOpcode hres =>
    have hunmapped := (reservedOpcode_iff_not_mapped _).1 hres
    generalize decode w = r at hdec
    cases hdec with
    | command hop => exact absurd (hop ▸ opcode_mapped _) hunmapped
    | nonzeroArg hop => exact absurd (.inl hop) hunmapped
    | unknownOpcode => rfl

theorem decodesTo_unknownOpcode_iff (w : Word) :
    DecodesTo w (.error .unknownOpcode) ↔ ReservedOpcode (w.toNat % 256) := by
  rw [← opField_toNat]
  exact ⟨fun | .unknownOpcode hop => hop, .unknownOpcode⟩

theorem decodesTo_nonzeroArg_iff (w : Word) :
    DecodesTo w (.error .nonzeroArg) ↔ FormatNOpcode (w.toNat % 256) ∧ w.toNat / 256 ≠ 0 := by
  have harg : argField w ≠ 0 ↔ w.toNat / 256 ≠ 0 := by
    rw [← argField_toNat, ne_eq, BitVec.toNat_eq]
    rfl
  rw [← opField_toNat, ← harg]
  exact ⟨fun | .nonzeroArg hop hne => ⟨hop, hne⟩, fun ⟨hop, hne⟩ => .nonzeroArg hop hne⟩

end Sys2Proof.Machine

namespace Sys2Proof.Proofs

open Sys2Proof.Machine

/-- Settles O5: the fields of the encoded word are the opcode and the argument, and they determine the decoding. -/
theorem decodeEncodeRoundTrip : Obligations.DecodeEncodeRoundTrip := decode_encode

/-- Settles O6: a word that decodes holds the command's opcode and argument, and is nothing but its two fields. -/
theorem encodeDecodeRoundTrip : Obligations.EncodeDecodeRoundTrip := by
  intro w i h
  cases (decode_eq_iff w _).1 h with
  | command hop harg =>
    exact ⟨(wellFormed_iff_argument_lt i).2 (harg ▸ (argField w).isLt), encode_of_fields hop harg⟩

/-- Settles O7: the two error outcomes of the decoder, with OP and ARG read as remainder and quotient by 256. -/
theorem illegalWordsAreTheReservedOnes : Obligations.IllegalWordsAreTheReservedOnes :=
  ⟨fun w => (decode_eq_iff w _).trans (decodesTo_unknownOpcode_iff w),
    fun w => (decode_eq_iff w _).trans (decodesTo_nonzeroArg_iff w)⟩

/-- Settles O8: each word is a literal, decoded by evaluation. -/
theorem sampleWordsDecode : Obligations.SampleWordsDecode := by
  unfold Obligations.SampleWordsDecode
  decide

/-- Settles O9: the word is the encoding of the command. -/
theorem immediateIsTheUpperBits : Obligations.ImmediateIsTheUpperBits := by
  intro imm himm
  have hrounds : (Instr.setRounds imm).wellFormed = true := decide_eq_true himm
  have hblock : (Instr.setBlock imm).wellFormed = true := decide_eq_true himm
  exact ⟨encode_eq_ofNat hrounds ▸ decode_encode _ hrounds, encode_eq_ofNat hblock ▸ decode_encode _ hblock⟩

end Sys2Proof.Proofs

/-! ### The primitives (40_primitives.md) -/

namespace Sys2Proof.Machine

/-! #### Rotations (R103, R104)

Core's rotations reduce the count modulo the width and have no case for count 0, where the shift by the whole width
gives 0. -/

theorem rotl32_eq_rotateLeft (x : Word) (n : Nat) : rotl32 x n = x.rotateLeft n := by
  unfold rotl32
  rw [BitVec.rotateLeft_def]
  split
  next h => simp [h, BitVec.ushiftRight_eq_zero]
  next => rfl

theorem rotr32_eq_rotateRight (x : Word) (n : Nat) : rotr32 x n = x.rotateRight n := by
  unfold rotr32
  rw [BitVec.rotateRight_def]
  split
  next h => simp [h]
  next => rfl

/-- Where the rotation to the right takes bit i from, k places up or wrapped round, is where the rotation to the left has put
that bit. -/
theorem rotateRight_rotateLeft {w : Nat} (x : BitVec w) (n : Nat) : (x.rotateLeft n).rotateRight n = x := by
  ext i hi
  have hk : n % w < w := Nat.mod_lt n (by omega)
  rw [BitVec.getElem_rotateRight]
  split
  next hlow =>
    rw [BitVec.getElem_rotateLeft, dif_neg (by omega)]
    congr 1
    omega
  next hhigh =>
    rw [BitVec.getElem_rotateLeft, dif_pos (by omega)]
    congr 1
    omega

/-- There are finitely many words, so an inverse on one side is one on the other. -/
theorem rotateLeft_rotateRight {w : Nat} (x : BitVec w) (n : Nat) : (x.rotateRight n).rotateLeft n = x := by
  have hinv : Function.LeftInverse (fun v : BitVec w => v.rotateRight n) fun v => v.rotateLeft n :=
    fun v => rotateRight_rotateLeft v n
  exact hinv.rightInverse_of_surjective (Finite.surjective_of_injective hinv.injective) x

@[simp] theorem rotr32_rotl32 (x : Word) (n : Nat) : rotr32 (rotl32 x n) n = x := by
  rw [rotr32_eq_rotateRight, rotl32_eq_rotateLeft, rotateRight_rotateLeft]

@[simp] theorem rotl32_rotr32 (x : Word) (n : Nat) : rotl32 (rotr32 x n) n = x := by
  rw [rotr32_eq_rotateRight, rotl32_eq_rotateLeft, rotateLeft_rotateRight]

/-! #### The word codec (R106, R107) -/

theorem wordBytes_bytesWord (b0 b1 b2 b3 : Byte) : wordBytes (bytesWord b0 b1 b2 b3) = [b0, b1, b2, b3] := by
  obtain ⟨h0, h1, h2, h3⟩ := bytesWord_lanes b0 b1 b2 b3
  rw [wordBytes, h0, h1, h2, h3]

theorem wordBytes_injective {v w : Word} (h : wordBytes v = wordBytes w) : v = w :=
  word_eq_of_lanes fun _ hi => by rw [← wordBytes_getD v hi, ← wordBytes_getD w hi, h]

theorem leWords_wordBytes_append (w : Word) (bs : List Byte) : leWords (wordBytes w ++ bs) = w :: leWords bs :=
  congrArg (· :: leWords bs) (wordBytes_injective (wordBytes_bytesWord _ _ _ _))

@[simp] theorem leWords_leBytes (ws : List Word) : leWords (leBytes ws) = ws := by
  induction ws with
  | nil => rfl
  | cons w ws ih => rw [leBytes, leWords_wordBytes_append, ih]

theorem leBytes_leWords {x : List Byte} (hx : x.length % 4 = 0) : leBytes (leWords x) = x := by
  induction x using leWords.induct with
  | case1 b0 b1 b2 b3 bs ih =>
    rw [leWords, leBytes, wordBytes_bytesWord, ih ((Nat.add_mod_right _ _).symm.trans hx)]
    rfl
  | case2 x hshort =>
    match x with
    | [] => rfl
    | [_] | [_, _] | [_, _, _] => cases hx
    | b0 :: b1 :: b2 :: b3 :: bs => exact absurd rfl (hshort b0 b1 b2 b3 bs)

/-! #### Block xor (R108) -/

theorem xorBytes_getD {x y : List Byte} {i : Nat} (hx : i < x.length) (hy : i < y.length) :
    (xorBytes x y).getD i 0 = x.getD i 0 ^^^ y.getD i 0 := by
  have hxy : i < (xorBytes x y).length := (xorBytes_length x y).symm ▸ Nat.lt_min.2 ⟨hx, hy⟩
  rw [List.getD_eq_getElem _ _ hx, List.getD_eq_getElem _ _ hy, List.getD_eq_getElem _ _ hxy]
  exact List.getElem_zipWith

theorem xorBytes_append {x x' : List Byte} (h : x.length = x'.length) (y y' : List Byte) :
    xorBytes (x ++ y) (x' ++ y') = xorBytes x x' ++ xorBytes y y' := List.zipWith_append h

theorem xorBytes_comm (x y : List Byte) : xorBytes x y = xorBytes y x := List.zipWith_comm_of_comm BitVec.xor_comm

theorem xorBytes_zeros (x : List Byte) : xorBytes x (List.replicate x.length 0) = x := by
  induction x with
  | nil => rfl
  | cons b x ih => exact congrArg₂ List.cons BitVec.xor_zero ih

theorem xorBytes_zero16 {x : List Byte} (hx : x.length = 16) : xorBytes x zero16 = x := by
  have h := xorBytes_zeros x
  rwa [hx] at h

theorem wordBytes_xor (v w : Word) : wordBytes (v ^^^ w) = xorBytes (wordBytes v) (wordBytes w) := by
  simp only [wordBytes, BitVec.extractLsb'_xor, xorBytes, List.zipWith]

/-- The encoding of a word-wise xor is the bytewise xor of the encodings. -/
theorem leBytes_zipWith_xor (vs ws : List Word) :
    leBytes (List.zipWith (fun a b => a ^^^ b) vs ws) = xorBytes (leBytes vs) (leBytes ws) := by
  induction vs generalizing ws with
  | nil => rfl
  | cons v vs ih =>
    cases ws with
    | nil => exact List.zipWith_nil_right.symm
    | cons w ws =>
      have hlen : (wordBytes v).length = (wordBytes w).length := rfl
      rw [List.zipWith_cons_cons, leBytes, leBytes, leBytes, ih, wordBytes_xor, xorBytes_append hlen]

theorem leWords_xorBytes {x y : List Byte} (hx : x.length % 4 = 0) (hy : y.length % 4 = 0) :
    leWords (xorBytes x y) = List.zipWith (fun a b => a ^^^ b) (leWords x) (leWords y) := by
  calc leWords (xorBytes x y)
      = leWords (xorBytes (leBytes (leWords x)) (leBytes (leWords y))) := by rw [leBytes_leWords hx, leBytes_leWords hy]
    _ = _ := by rw [← leBytes_zipWith_xor, leWords_leBytes]

end Sys2Proof.Machine

namespace Sys2Proof.Proofs

open Sys2Proof.Machine

/-- Settles O29: the rotations are core's, which move each bit to a place and back. -/
theorem rotationLaws : Obligations.RotationLaws := fun x n =>
  ⟨rotl32_eq_rotateLeft x n, rotr32_eq_rotateRight x n, rotr32_rotl32 x n, rotl32_rotr32 x n⟩

/-- Settles O30: by the recursion of the codec, four bytes to a word. -/
theorem wordCodecLaws : Obligations.WordCodecLaws := by
  refine ⟨fun ws => ⟨leWords_leBytes ws, leBytes_length ws⟩, fun x => leBytes_leWords, fun ws k i hk hi => ?_⟩
  have hdiv : (4 * k + i) / 4 = k := by omega
  have hmod : (4 * k + i) % 4 = i := by omega
  rw [leBytes_getElem?, hdiv, hmod, List.getD_eq_getElem?_getD, List.getElem?_eq_getElem hk]
  rfl

/-- Settles O31: the words of the bytewise xor are found by encoding the word-wise xor. -/
theorem blockXorLaws : Obligations.BlockXorLaws := by
  refine ⟨fun x y hlen => ⟨?_, fun i hi => xorBytes_getD hi (hlen ▸ hi)⟩,
    fun x y hlen hx => leWords_xorBytes hx (hlen ▸ hx),
    fun x hx => ⟨xorBytes_zero16 hx, (xorBytes_comm _ _).trans (xorBytes_zero16 hx)⟩⟩
  rw [xorBytes_length, ← hlen, Nat.min_self]

end Sys2Proof.Proofs

/-! ### The key schedule (41_key_schedule.md) -/

namespace Sys2Proof.Machine

/-! #### The initial subkeys (R123) -/

theorem arithmeticWords_getD_succ (x : Word) {n i : Nat} (h : i + 1 < n) :
    (arithmeticWords x n).getD (i + 1) 0 = (arithmeticWords x n).getD i 0 + Config.magicQ := by
  induction n generalizing x i with
  | zero => exact absurd h (Nat.not_lt_zero _)
  | succ n ih =>
    cases i with
    | zero =>
      cases n with
      | zero => exact absurd h (Nat.lt_irrefl _)
      | succ n => rfl
    | succ i =>
      rw [arithmeticWords, List.getD_cons_succ, List.getD_cons_succ]
      exact ih (x + Config.magicQ) (Nat.lt_of_succ_lt_succ h)

/-! #### The mixing loop (R124) -/

theorem low5_eq_toNat_mod (x : Word) : low5 x = x.toNat % 32 := by
  unfold low5
  rw [BitVec.toNat_and]
  exact Nat.and_two_pow_sub_one_eq_mod x.toNat 5

theorem leWords_length {x : List Byte} (hx : x.length % 4 = 0) : (leWords x).length = x.length / 4 := by
  have hbytes := congrArg List.length (leBytes_leWords hx)
  rw [leBytes_length] at hbytes
  omega

theorem getD_set_same {ws : List Word} {i : Nat} (h : i < ws.length) (v : Word) : (ws.set i v).getD i 0 = v := by
  rw [List.getD_eq_getElem?_getD, List.getElem?_set_self h, Option.getD_some]

theorem getD_set_ne (ws : List Word) {i k : Nat} (h : k ≠ i) (v : Word) : (ws.set i v).getD k 0 = ws.getD k 0 := by
  rw [List.getD_eq_getElem?_getD, List.getElem?_set_ne h.symm, ← List.getD_eq_getElem?_getD]

/-- The loop's state after n iterations, on t subkeys and a key of c words. -/
def mixAfter (t c : Nat) (key : List Byte) (n : Nat) : Mixing :=
  (List.range n).foldl (mixStep t c) (mixStart key t)

theorem mixAfter_succ (t c : Nat) (key : List Byte) (n : Nat) :
    mixAfter t c key (n + 1) = mixStep t c (mixAfter t c key n) n := by
  simp only [mixAfter, List.range_succ, List.foldl_append, List.foldl_cons, List.foldl_nil]

theorem expand_eq_mixAfter (key : List Byte) (r : Nat) :
    expand key r = (mixAfter (2 * r + 4) (key.length / 4) key (3 * max (key.length / 4) (2 * r + 4))).s := by
  unfold expand mixAll subkeysFor mixAfter
  rfl

/-- What n iterations on t subkeys and c key words leave: the two tables' lengths, and indices that wrap round. -/
structure MixesAt (t c n : Nat) (m : Mixing) : Prop where
  subkeys  : m.s.length = t
  keyWords : m.l.length = c
  ii       : m.ii = n % t
  j        : m.j = n % c

theorem mixStart_mixesAt (t : Nat) {c : Nat} {key : List Byte} (hkey : key.length = 4 * c) :
    MixesAt t c 0 (mixStart key t) where
  subkeys := arithmeticWords_length Config.magicP t
  keyWords := (leWords_length (by omega)).trans (by omega)
  ii := (Nat.zero_mod t).symm
  j := (Nat.zero_mod c).symm

theorem MixesAt.step {t c n : Nat} {m : Mixing} (h : MixesAt t c n m) (k : Nat) :
    MixesAt t c (n + 1) (mixStep t c m k) where
  subkeys := List.length_set.trans h.subkeys
  keyWords := List.length_set.trans h.keyWords
  ii := (congrArg (fun i => (i + 1) % t) h.ii).trans (Nat.mod_add_mod n t 1)
  j := (congrArg (fun i => (i + 1) % c) h.j).trans (Nat.mod_add_mod n c 1)

theorem mixAfter_mixesAt (t : Nat) {c : Nat} {key : List Byte} (hkey : key.length = 4 * c) (n : Nat) :
    MixesAt t c n (mixAfter t c key n) := by
  induction n with
  | zero => exact mixStart_mixesAt t hkey
  | succ n ih => rw [mixAfter_succ]; exact ih.step n

/-- R124: A from the subkey, B from the key word with the new A and the old B. -/
theorem mixStep_a (t c : Nat) (m : Mixing) (k : Nat) :
    (mixStep t c m k).a = (m.s.getD m.ii 0 + m.a + m.b).rotateLeft 3 := rotl32_eq_rotateLeft _ 3

theorem mixStep_b (t c : Nat) (m : Mixing) (k : Nat) :
    (mixStep t c m k).b = (m.l.getD m.j 0 + (mixStep t c m k).a + m.b).rotateLeft
      (((mixStep t c m k).a + m.b).toNat % 32) := by
  rw [← low5_eq_toNat_mod]
  exact rotl32_eq_rotateLeft _ _

/-! #### The checks of R222 steps 2 and 3 -/

theorem State.checkCipherConfig_of_set {s : State} (h : s.CipherConfigured) : s.checkCipherConfig = none :=
  if_neg (not_or.2 h)

theorem State.checkCipherConfig_of_unset {s : State} (h : ¬ s.CipherConfigured) :
    s.checkCipherConfig = some .notConfigured :=
  if_pos (by simpa only [not_and_or, not_not] using h)

theorem State.checkKeyLen_of_legal {s : State} (h : s.KeyLenLegal) : s.checkKeyLen = none := if_pos h

theorem State.checkKeyLen_of_illegal {s : State} (h : ¬ s.KeyLenLegal) : s.checkKeyLen = some .keyLen := if_neg h

theorem State.cipherChecks_of_legal {s : State} (hc : s.CipherConfigured) (hk : s.KeyLenLegal) :
    s.cipherChecks = none := by
  rw [State.cipherChecks, checkCipherConfig_of_set hc, checkKeyLen_of_legal hk]
  rfl

theorem State.cipherChecks_of_unset {s : State} (hc : ¬ s.CipherConfigured) :
    s.cipherChecks = some .notConfigured := by
  rw [State.cipherChecks, checkCipherConfig_of_unset hc]
  rfl

theorem State.cipherChecks_of_illegal_keyLen {s : State} (hc : s.CipherConfigured) (hk : ¬ s.KeyLenLegal) :
    s.cipherChecks = some .keyLen := by
  rw [State.cipherChecks, checkCipherConfig_of_set hc, checkKeyLen_of_illegal hk]
  rfl

/-! #### The run of the key schedule (R125) -/

/-- Where RAM holds the encoding of some words, each is read back as a word. -/
theorem State.wordAt_of_leBytes {t : State} {base : Nat} {ws : List Word}
    (h : ∀ o, o < 4 * ws.length → t.byteAt (base + o) = (leBytes ws).getD o 0) {k : Nat} (hk : k < ws.length) :
    t.wordAt (base + 4 * k) = ws.getD k 0 := by
  refine word_eq_of_lanes fun i hi => ?_
  have hdiv : (4 * k + i) / 4 = k := by omega
  have hmod : (4 * k + i) % 4 = i := by omega
  rw [t.wordAt_lane _ hi, Nat.add_assoc, h _ (by omega), List.getD_eq_getElem?_getD, leBytes_getElem?, hdiv, hmod,
    List.getD_eq_getElem?_getD, List.getElem?_eq_getElem hk]
  rfl

/-- A byte of RAM after the key schedule: one of the t subkeys, or as before. -/
theorem State.runKeySchedule_byteAt (s : State) (a : Nat) :
    s.runKeySchedule.byteAt a =
      if inSubkeys (2 * s.rounds + 4) a then (leBytes s.subkeys).getD (a - sBase) 0 else s.byteAt a := by
  have h := State.byteAt_of_write s.runKeySchedule_mem s.runKeySchedule_resets a
  rwa [leBytes_length, s.subkeys_length] at h

theorem State.runKeySchedule_ramUnchangedOutside (s : State) :
    RamUnchangedOutside (inSubkeys (2 * s.rounds + 4)) s s.runKeySchedule :=
  fun a ha => (s.runKeySchedule_byteAt a).trans (if_neg ha)

theorem State.runKeySchedule_holdsSubkeys (s : State) :
    HoldsSubkeys s.runKeySchedule (expand s.keyBytes s.rounds) := by
  refine ⟨fun k hk => State.wordAt_of_leBytes (fun o ho => ?_) hk, s.runKeySchedule_subkeyCount⟩
  rw [expand_length] at ho
  rw [s.runKeySchedule_byteAt, if_pos ⟨Nat.le_add_right _ _, by omega⟩, Nat.add_sub_cancel_left]
  rfl

theorem State.runKeySchedule_subkeyCount_toNat (s : State) :
    s.runKeySchedule.subkeyCount.toNat = 2 * s.rounds + 4 := by
  have hr : s.rounds ≤ 255 := s.rounds_le
  rw [s.runKeySchedule_subkeyCount, s.subkeys_length, BitVec.toNat_ofNat]
  omega

theorem State.runKeySchedule_completeOk_onlySchedule (s : State) : OnlySchedule s s.runKeySchedule.completeOk := by
  cases s
  rfl

/-! #### EXPAND_KEY (R127) -/

theorem execExpandKey_of_fail {s : State} {d : DetailCode} (h : s.cipherChecks = some d) :
    execExpandKey s = .next (s.raise d) := by
  unfold execExpandKey
  rw [h]

theorem execExpandKey_of_pass {s : State} (h : s.cipherChecks = none) :
    execExpandKey s = .next s.runKeySchedule.completeOk := by
  unfold execExpandKey
  rw [h]

theorem failsPlainly_raise (s : State) (d : DetailCode) : FailsPlainly s (s.raise d) d.result d := ⟨⟨rfl, rfl⟩, rfl⟩

end Sys2Proof.Machine

namespace Sys2Proof.Proofs

open Sys2Proof.Machine

/-- Settles O32: by the recursion of the table, each word Q above the one before it. -/
theorem initialSubkeyTable : Obligations.InitialSubkeyTable := by
  refine fun t => ⟨arithmeticWords_length Config.magicP t, fun ht => ?_, fun i hi hit => ?_⟩
  · obtain ⟨n, rfl⟩ := Nat.exists_eq_add_of_lt ht
    rfl
  · obtain ⟨k, rfl⟩ := Nat.exists_eq_add_of_le' hi
    exact arithmeticWords_getD_succ Config.magicP hit

/-- Settles O33: the indices wrap round inside the two tables, so an iteration reads back what it writes there. -/
theorem keyScheduleLoop : Obligations.KeyScheduleLoop := by
  refine ⟨expand_length, fun key r => ⟨_, _, _, rfl, rfl, rfl, expand_eq_mixAfter key r⟩,
    fun key t => ⟨_, rfl, rfl, rfl, rfl, rfl, rfl, rfl⟩, fun key t c n ht hc hkey => ?_⟩
  have hmix := mixAfter_mixesAt t hkey n
  refine ⟨mixAfter t c key n, mixStep t c (mixAfter t c key n) n, rfl, mixAfter_succ t c key n, ?_⟩
  generalize mixAfter t c key n = x at hmix ⊢
  obtain ⟨hs, hl, hii, hj⟩ := hmix
  have hin : x.ii < x.s.length := by rw [hs, hii]; exact Nat.mod_lt n ht
  have hjn : x.j < x.l.length := by rw [hl, hj]; exact Nat.mod_lt n hc
  exact ⟨hii, hj, hs, hl, mixStep_a t c x n, mixStep_b t c x n, getD_set_same hin _, getD_set_same hjn _,
    fun i hi => getD_set_ne x.s hi _, fun i hi => getD_set_ne x.l hi _⟩

/-- Settles O34: when both checks pass EXPAND_KEY is the key schedule, and else the first failing check's error. -/
theorem expandKeyCommand : Obligations.ExpandKeyCommand := by
  refine ⟨decode_of_fields rfl rfl, fun s => ⟨fun hc hk => ?_, fun hc => ?_, fun hc hk => ?_⟩⟩
  · exact ⟨_, execExpandKey_of_pass (State.cipherChecks_of_legal hc hk), ⟨rfl, rfl⟩,
      s.runKeySchedule_completeOk_onlySchedule, s.runKeySchedule_holdsSubkeys, s.runKeySchedule_subkeyCount_toNat,
      s.runKeySchedule_ramUnchangedOutside⟩
  · exact ⟨_, execExpandKey_of_fail (State.cipherChecks_of_unset hc), failsPlainly_raise s _⟩
  · exact ⟨_, execExpandKey_of_fail (State.cipherChecks_of_illegal_keyLen hc hk), failsPlainly_raise s _⟩

end Sys2Proof.Proofs

/-! ### The block transform (42_block_transform.md) -/

namespace Sys2Proof.Machine

/-! #### Blocks as four words (R140) -/

/-- The words of the block that the working registers hold: A, B, C, D, without the temporaries t and u. -/
def Work.words (w : Work) : List Word := [w.a, w.b, w.c, w.d]

theorem Work.words_eq_iff (v w : Work) : v.words = w.words ↔ v.a = w.a ∧ v.b = w.b ∧ v.c = w.c ∧ v.d = w.d := by
  simp only [Work.words, List.cons.injEq, and_true]

theorem storeBlock_eq_leBytes (w : Work) : storeBlock w = leBytes w.words := rfl

theorem leWords_storeBlock (w : Work) : leWords (storeBlock w) = w.words := leWords_leBytes w.words

theorem loadBlock_words {blk : List Byte} (h : blk.length = 16) : (loadBlock blk).words = leWords blk := by
  have hlen : (leWords blk).length = 4 := by rw [leWords_length (by omega), h]
  unfold loadBlock Work.words
  match leWords blk, hlen with
  | [_, _, _, _], _ => rfl

theorem loadBlock_storeBlock_words (w : Work) : (loadBlock (storeBlock w)).words = w.words := by
  rw [loadBlock_words (storeBlock_length w), leWords_storeBlock]

/-! #### The two transforms undo each other (R143) -/

/-- `g` takes `f` back on A, B, C and D, whatever the temporaries hold in between: a store and a load lose them. -/
def Undoes (g f : Work → Work) : Prop := ∀ w v, v.words = (f w).words → (g v).words = w.words

theorem Undoes.comp {f g f' g' : Work → Work} (h : Undoes g f) (h' : Undoes g' f') : Undoes (g ∘ g') (f' ∘ f) :=
  fun w v hv => h w (g' v) (h' (f w) v hv)

theorem Undoes.foldl {f g : Work → Nat → Work} (h : ∀ i, Undoes (g · i) (f · i)) (is : List Nat) :
    Undoes (is.reverse.foldl g) (is.foldl f) := by
  induction is with
  | nil => exact fun _ _ hv => hv
  | cons i is ih =>
    intro w v hv
    simp only [List.reverse_cons, List.foldl_append]
    exact h i w _ (ih (f w i) v hv)

/-- A transform that undoes another on the working registers undoes it on blocks. -/
theorem Undoes.storeBlock_loadBlock {f g : Work → Work} (h : Undoes g f) {blk : List Byte} (hblk : blk.length = 16) :
    storeBlock (g (loadBlock (storeBlock (f (loadBlock blk))))) = blk := by
  rw [storeBlock_eq_leBytes, h _ _ (loadBlock_storeBlock_words _), loadBlock_words hblk]
  exact leBytes_leWords (by omega)

/-- Two states that agree on A, B, C and D differ at most in the temporaries. -/
theorem undoes_of_any_temporaries {f g : Work → Work}
    (h : ∀ w t u, (g { a := (f w).a, b := (f w).b, c := (f w).c, d := (f w).d, t := t, u := u }).words = w.words) :
    Undoes g f := by
  intro w v hv
  obtain ⟨ha, hb, hc, hd⟩ := (v.words_eq_iff _).1 hv
  have hg := h w v.t v.u
  rwa [← ha, ← hb, ← hc, ← hd] at hg

section Rounds

variable (ks : List Word) (r : Nat)

theorem decWhitenIn_undoes : Undoes (decWhitenIn ks) (encWhitenIn ks) :=
  undoes_of_any_temporaries fun w t u => by simp [Work.words, decWhitenIn, encWhitenIn]

theorem encWhitenIn_undoes : Undoes (encWhitenIn ks) (decWhitenIn ks) :=
  undoes_of_any_temporaries fun w t u => by simp [Work.words, decWhitenIn, encWhitenIn]

theorem decWhitenOut_undoes : Undoes (decWhitenOut ks r) (encWhitenOut ks r) :=
  undoes_of_any_temporaries fun w t u => by simp [Work.words, decWhitenOut, encWhitenOut]

theorem encWhitenOut_undoes : Undoes (encWhitenOut ks r) (decWhitenOut ks r) :=
  undoes_of_any_temporaries fun w t u => by simp [Work.words, decWhitenOut, encWhitenOut]

/-- A round moves B and D to A and C, from which the round that undoes it takes the same t and u. -/
theorem decRound_undoes (i : Nat) : Undoes (decRound ks · i) (encRound ks · i) :=
  undoes_of_any_temporaries fun w t u => by simp [Work.words, decRound, encRound]

theorem encRound_undoes (i : Nat) : Undoes (encRound ks · i) (decRound ks · i) :=
  undoes_of_any_temporaries fun w t u => by simp [Work.words, decRound, encRound]

/-- R143. -/
theorem decBlock_encBlock {blk : List Byte} (h : blk.length = 16) : decBlock ks r (encBlock ks r blk) = blk :=
  (((decWhitenIn_undoes ks).comp (.foldl (decRound_undoes ks) (roundNumbers r))).comp
    (decWhitenOut_undoes ks r)).storeBlock_loadBlock h

/-- R143. -/
theorem encBlock_decBlock {blk : List Byte} (h : blk.length = 16) : encBlock ks r (decBlock ks r blk) = blk := by
  have hrounds := Undoes.foldl (encRound_undoes ks) (roundNumbers r).reverse
  rw [List.reverse_reverse] at hrounds
  exact (((encWhitenOut_undoes ks r).comp hrounds).comp (encWhitenIn_undoes ks)).storeBlock_loadBlock h

end Rounds

/-! #### The registers round by round (R141, R142) -/

theorem quadF_eq_rotateLeft (x : Word) : quadF x = (x * (2 * x + 1)).rotateLeft 5 := rotl32_eq_rotateLeft _ 5

/-- The working registers of Enc after whitening and rounds 1 to n. -/
def encAfter (ks : List Word) (blk : List Byte) (n : Nat) : Work :=
  (roundNumbers n).foldl (encRound ks) (encWhitenIn ks (loadBlock blk))

theorem encAfter_succ (ks : List Word) (blk : List Byte) (n : Nat) :
    encAfter ks blk (n + 1) = encRound ks (encAfter ks blk n) (n + 1) := by
  rw [encAfter, roundNumbers, List.range'_1_concat, List.foldl_append, Nat.add_comm 1 n]
  rfl

/-- The working registers of Dec after whitening and rounds r down to i + 1. -/
def decBefore (ks : List Word) (r : Nat) (blk : List Byte) (i : Nat) : Work :=
  (List.range' (i + 1) (r - i)).reverse.foldl (decRound ks) (decWhitenOut ks r (loadBlock blk))

theorem decBefore_pred (ks : List Word) {r i : Nat} (blk : List Byte) (h : i < r) :
    decBefore ks r blk i = decRound ks (decBefore ks r blk (i + 1)) (i + 1) := by
  have hlen : r - i = (r - (i + 1)) + 1 := by omega
  rw [decBefore, hlen, List.range'_succ, List.reverse_cons, List.foldl_append]
  rfl

theorem encRound_b (ks : List Word) (w : Work) (i : Nat) :
    (encRound ks w i).b =
      (w.c ^^^ quadF w.d).rotateLeft ((quadF w.b).toNat % 32) + ks.getD (2 * i + 1) 0 := by
  rw [← low5_eq_toNat_mod, ← rotl32_eq_rotateLeft]
  rfl

theorem encRound_d (ks : List Word) (w : Work) (i : Nat) :
    (encRound ks w i).d = (w.a ^^^ quadF w.b).rotateLeft ((quadF w.d).toNat % 32) + ks.getD (2 * i) 0 := by
  rw [← low5_eq_toNat_mod, ← rotl32_eq_rotateLeft]
  rfl

theorem decRound_a (ks : List Word) (w : Work) (i : Nat) :
    (decRound ks w i).a =
      (w.d - ks.getD (2 * i) 0).rotateRight ((quadF w.c).toNat % 32) ^^^ quadF w.a := by
  rw [← low5_eq_toNat_mod, ← rotr32_eq_rotateRight]
  rfl

theorem decRound_c (ks : List Word) (w : Work) (i : Nat) :
    (decRound ks w i).c =
      (w.b - ks.getD (2 * i + 1) 0).rotateRight ((quadF w.a).toNat % 32) ^^^ quadF w.c := by
  rw [← low5_eq_toNat_mod, ← rotr32_eq_rotateRight]
  rfl

theorem leWords_eq_encAfter_zero (ks : List Word) {blk : List Byte} (h : blk.length = 16) :
    leWords blk = [(encAfter ks blk 0).a, (encAfter ks blk 0).b - ks.getD 0 0, (encAfter ks blk 0).c,
      (encAfter ks blk 0).d - ks.getD 1 0] := by
  rw [← loadBlock_words h]
  simp [Work.words, encAfter, roundNumbers, encWhitenIn, subkeyAt]

theorem leWords_eq_decBefore_last (ks : List Word) (r : Nat) {blk : List Byte} (h : blk.length = 16) :
    leWords blk = [(decBefore ks r blk r).a + ks.getD (2 * r + 2) 0, (decBefore ks r blk r).b,
      (decBefore ks r blk r).c + ks.getD (2 * r + 3) 0, (decBefore ks r blk r).d] := by
  rw [← loadBlock_words h, decBefore, Nat.sub_self]
  simp [Work.words, decWhitenOut, subkeyAt]

/-! #### The bytes of OUT_BUF -/

/-- A byte of RAM after a write of OUT_BUF. -/
theorem State.putOut_byteAt (s : State) (bs : List Byte) (n a : Nat) :
    (s.putOut bs n).byteAt a = if inOutput bs.length a then bs.getD (a - outBase) 0 else s.byteAt a :=
  State.byteAt_of_write (t := s.putOut bs n) rfl rfl a

theorem State.putOut_holdsOutput (s : State) (bs : List Byte) (n : Nat) : HoldsOutput (s.putOut bs n) bs := by
  intro o ho
  rw [s.putOut_byteAt, if_pos ⟨Nat.le_add_right _ _, Nat.add_lt_add_left ho _⟩, Nat.add_sub_cancel_left]

theorem RamUnchangedOutside.putOut {inside : Nat → Prop} {s t : State} (h : RamUnchangedOutside inside s t)
    (bs : List Byte) (n : Nat) :
    RamUnchangedOutside (fun a => inside a ∨ inOutput bs.length a) s (t.putOut bs n) := by
  intro a ha
  obtain ⟨hin, hout⟩ := not_or.1 ha
  rw [t.putOut_byteAt, if_neg hout]
  exact h a hin

theorem State.putOut_wordAt_below (s : State) (bs : List Byte) (n : Nat) {a : Nat} (h : a + 4 ≤ outBase) :
    (s.putOut bs n).wordAt a = s.wordAt a := by
  rw [State.wordAt, s.putOut_byteAt_below bs n (by omega : a < outBase),
    s.putOut_byteAt_below bs n (by omega : a + 1 < outBase), s.putOut_byteAt_below bs n (by omega : a + 2 < outBase),
    s.putOut_byteAt_below bs n (by omega : a + 3 < outBase)]
  rfl

/-- S lies below OUT_BUF, so an output leaves the subkeys. -/
theorem HoldsSubkeys.putOut {s : State} {ks : List Word} (h : HoldsSubkeys s ks) (hlen : ks.length ≤ Config.tMax)
    (bs : List Byte) (n : Nat) : HoldsSubkeys (s.putOut bs n) ks := by
  obtain ⟨hwords, hcount⟩ := h
  refine ⟨fun k hk => (s.putOut_wordAt_below bs n ?_).trans (hwords k hk), hcount⟩
  unfold Config.tMax at hlen
  unfold sBase outBase
  omega

/-- R225: the error completion of a command that writes OUT_BUF, before it wrote anything. -/
theorem failsScrubbed_raiseScrub (s : State) (d : DetailCode) : FailsScrubbed s (s.raiseScrub d) d.result d := by
  have hzero := s.putOut_holdsOutput (List.replicate s.params.bufBytes 0) 0
  refine ⟨⟨rfl, rfl⟩, rfl, ⟨fun o ho => ?_, rfl⟩, fun a ha => ?_⟩
  · exact (hzero o (by rwa [List.length_replicate])).trans (by simp)
  · exact (s.putOut_byteAt _ 0 a).trans (if_neg (by rwa [List.length_replicate]))

/-! #### BLOCK_ENC and BLOCK_DEC (R144, R145) -/

/-- The completion of a single-block command whose transform ends in the working registers w. -/
def State.blockDone (s : State) (w : Work) : State :=
  ((s.runKeySchedule.putWork w).putOut (storeBlock w) 16).completeOk

theorem blockCommand_of_fail (f : List Word → Nat → List Byte → Work) {s : State} {d : DetailCode}
    (h : s.cipherChecks = some d) : blockCommand f s = .next (s.raiseScrub d) := by
  unfold blockCommand
  rw [h]

theorem blockCommand_of_pass (f : List Word → Nat → List Byte → Work) {s : State} (h : s.cipherChecks = none) :
    blockCommand f s = .next (s.blockDone (f (expand s.keyBytes s.rounds) s.rounds (s.inBytes 16))) := by
  unfold blockCommand
  rw [h]
  rfl

theorem State.blockDone_onlyCipher (s : State) (w : Work) : OnlyCipher s (s.blockDone w) := by
  cases s
  rfl

theorem State.blockDone_holdsSubkeys (s : State) (w : Work) :
    HoldsSubkeys (s.blockDone w) (expand s.keyBytes s.rounds) := by
  have hr : s.rounds ≤ 255 := s.rounds_le
  have hlen : (expand s.keyBytes s.rounds).length ≤ Config.tMax := by
    rw [expand_length, Config.tMax]
    omega
  exact HoldsSubkeys.putOut (s := s.runKeySchedule.putWork w) s.runKeySchedule_holdsSubkeys hlen
    (storeBlock w) 16

theorem State.blockDone_holdsOutput (s : State) (w : Work) : HoldsOutput (s.blockDone w) (storeBlock w) :=
  (s.runKeySchedule.putWork w).putOut_holdsOutput (storeBlock w) 16

theorem State.blockDone_ramUnchangedOutside (s : State) (w : Work) :
    RamUnchangedOutside (fun a => inSubkeys (2 * s.rounds + 4) a ∨ inOutput 16 a) s (s.blockDone w) :=
  RamUnchangedOutside.putOut (t := s.runKeySchedule.putWork w) s.runKeySchedule_ramUnchangedOutside
    (storeBlock w) 16

/-- R144 and R145, for either transform. -/
theorem blockCommand_spec (f : List Word → Nat → List Byte → Work) (s : State) :
    (s.CipherConfigured → s.KeyLenLegal →
      ∃ t, blockCommand f s = .next t ∧ Completes s t ∧ OnlyCipher s t ∧
        HoldsSubkeys t (expand s.keyBytes s.rounds) ∧
        HoldsOutput t (storeBlock (f (expand s.keyBytes s.rounds) s.rounds (s.inBytes 16))) ∧ t.outLen = 16 ∧
        RamUnchangedOutside (fun a => inSubkeys (2 * s.rounds + 4) a ∨ inOutput 16 a) s t) ∧
    (¬ s.CipherConfigured → ∃ t, blockCommand f s = .next t ∧ FailsScrubbed s t .configError .notConfigured) ∧
    (s.CipherConfigured → ¬ s.KeyLenLegal →
      ∃ t, blockCommand f s = .next t ∧ FailsScrubbed s t .argError .keyLen) := by
  refine ⟨fun hc hk => ?_, fun hc => ?_, fun hc hk => ?_⟩
  · exact ⟨_, blockCommand_of_pass f (State.cipherChecks_of_legal hc hk), ⟨rfl, rfl⟩, s.blockDone_onlyCipher _,
      s.blockDone_holdsSubkeys _, s.blockDone_holdsOutput _, rfl, s.blockDone_ramUnchangedOutside _⟩
  · exact ⟨_, blockCommand_of_fail f (State.cipherChecks_of_unset hc), failsScrubbed_raiseScrub s _⟩
  · exact ⟨_, blockCommand_of_fail f (State.cipherChecks_of_illegal_keyLen hc hk), failsScrubbed_raiseScrub s _⟩

end Sys2Proof.Machine

namespace Sys2Proof.Proofs

open Sys2Proof.Machine

/-- Settles O35: each part of Dec undoes its part of Enc, and the other way round, whatever the subkeys are. -/
theorem blockTransformInverse : Obligations.BlockTransformInverse := fun key r _ _ _ _ hblk =>
  ⟨decBlock_encBlock (expand key r) r hblk, encBlock_decBlock (expand key r) r hblk⟩

/-- Settles O36: Enc is the transform that BLOCK_ENC runs. -/
theorem blockEncCommand : Obligations.BlockEncCommand := ⟨decode_of_fields rfl rfl, blockCommand_spec encWork⟩

/-- Settles O37: Dec is the transform that BLOCK_DEC runs. -/
theorem blockDecCommand : Obligations.BlockDecCommand := ⟨decode_of_fields rfl rfl, blockCommand_spec decWork⟩

/-- Settles O56: the values are those of the working registers after each round. -/
theorem encBlockRounds : Obligations.EncBlockRounds := by
  refine fun ks r blk hblk => ⟨fun i => (encAfter ks blk i).a, fun i => (encAfter ks blk i).b,
    fun i => (encAfter ks blk i).c, fun i => (encAfter ks blk i).d, leWords_eq_encAfter_zero ks hblk,
    fun i hi _ => ?_, storeBlock_length _, leWords_storeBlock _⟩
  obtain ⟨n, rfl⟩ := Nat.exists_eq_add_of_le' hi
  simp only [Nat.add_sub_cancel, encAfter_succ]
  exact ⟨_, _, quadF_eq_rotateLeft _, quadF_eq_rotateLeft _, rfl, encRound_b ks _ _, rfl, encRound_d ks _ _⟩

/-- Settles O57: the values are those of the working registers before each round. -/
theorem decBlockRounds : Obligations.DecBlockRounds := by
  refine fun ks r blk hblk => ⟨fun i => (decBefore ks r blk i).a, fun i => (decBefore ks r blk i).b,
    fun i => (decBefore ks r blk i).c, fun i => (decBefore ks r blk i).d,
    leWords_eq_decBefore_last ks r hblk, fun i hi hir => ?_, storeBlock_length _,
    leWords_storeBlock _⟩
  obtain ⟨n, rfl⟩ := Nat.exists_eq_add_of_le' hi
  simp only [Nat.add_sub_cancel, decBefore_pred ks blk hir]
  exact ⟨_, _, quadF_eq_rotateLeft _, quadF_eq_rotateLeft _, decRound_a ks _ _, rfl, decRound_c ks _ _, rfl⟩

end Sys2Proof.Proofs

/-! ### PCBC (43_pcbc.md) -/

namespace Sys2Proof.Machine

/-! #### Block xor as a group operation (R108) -/

theorem xorBytes_assoc (x y z : List Byte) : xorBytes (xorBytes x y) z = xorBytes x (xorBytes y z) := by
  unfold xorBytes
  induction x generalizing y z with
  | nil => rfl
  | cons a x ih =>
    cases y with
    | nil => rfl
    | cons b y =>
      cases z with
      | nil => rfl
      | cons c z =>
        simp only [List.zipWith_cons_cons, BitVec.xor_assoc]
        exact congrArg _ (ih y z)

theorem xorBytes_self (x : List Byte) : xorBytes x x = List.replicate x.length 0 := by
  unfold xorBytes
  induction x with
  | nil => rfl
  | cons a x ih => rw [List.zipWith_cons_cons, BitVec.xor_self, ih]; rfl

theorem xorBytes_cancel_left {x y : List Byte} (h : y.length = x.length) : xorBytes x (xorBytes x y) = y := by
  rw [← xorBytes_assoc, xorBytes_self, ← h, xorBytes_comm, xorBytes_zeros]

theorem xorBytes_length_sixteen {x y : List Byte} (hx : x.length = 16) (hy : y.length = 16) :
    (xorBytes x y).length = 16 := by
  rw [xorBytes_length, hx, hy, Nat.min_self]

theorem xorBytes_right_inj {x y z : List Byte} (hy : y.length = x.length) (hz : z.length = x.length) :
    xorBytes x y = xorBytes x z ↔ y = z := by
  refine ⟨fun h => ?_, fun h => h ▸ rfl⟩
  rw [← xorBytes_cancel_left hy, h, xorBytes_cancel_left hz]

theorem xorBytes_left_inj {x y z : List Byte} (hy : y.length = x.length) (hz : z.length = x.length) :
    xorBytes y x = xorBytes z x ↔ y = z := by
  rw [xorBytes_comm y, xorBytes_comm z, xorBytes_right_inj hy hz]

/-- Each side of an equation of block xors can give a block to the other. -/
theorem xorBytes_eq_xorBytes_comm {x y z w : List Byte} (hx : x.length = 16) (hy : y.length = 16) (hz : z.length = 16)
    (hw : w.length = 16) : xorBytes x y = xorBytes z w ↔ xorBytes x z = xorBytes y w := by
  have hyz := xorBytes_length_sixteen hy hz
  have hxy := xorBytes_length_sixteen hx hy
  have hzw := xorBytes_length_sixteen hz hw
  rw [← xorBytes_right_inj (hxy.trans hyz.symm) (hzw.trans hyz.symm)]
  have hleft : xorBytes (xorBytes y z) (xorBytes x y) = xorBytes x z := by
    rw [xorBytes_comm x y, xorBytes_comm y z, xorBytes_assoc, xorBytes_cancel_left (hx.trans hy.symm), xorBytes_comm]
  have hright : xorBytes (xorBytes y z) (xorBytes z w) = xorBytes y w := by
    rw [xorBytes_assoc, xorBytes_cancel_left (hw.trans hz.symm)]
  rw [hleft, hright]

/-! #### A byte sequence as its blocks (R8) -/

theorem blockAt_zero_append {b : List Byte} (hb : b.length = 16) (x : List Byte) : blockAt 0 (b ++ x) = b := by
  rw [blockAt, Nat.mul_zero, List.drop_zero, List.take_left' hb]

theorem blockAt_succ_append {b : List Byte} (hb : b.length = 16) (k : Nat) (x : List Byte) :
    blockAt (k + 1) (b ++ x) = blockAt k x := by
  rw [blockAt, Nat.mul_succ, Nat.add_comm, ← List.drop_drop, List.drop_left' hb, blockAt]

theorem blockAt_flatten {bs : List (List Byte)} (hbs : ∀ b ∈ bs, b.length = 16) (k : Nat) :
    blockAt k bs.flatten = bs.getD k [] := by
  induction bs generalizing k with
  | nil => simp [blockAt]
  | cons b bs ih =>
    obtain ⟨hb, hbs⟩ := List.forall_mem_cons.1 hbs
    rw [List.flatten_cons]
    cases k with
    | zero => exact blockAt_zero_append hb _
    | succ k => exact (blockAt_succ_append hb k _).trans (ih hbs k)

theorem blocksOf_succ (m : Nat) (x : List Byte) : blocksOf (m + 1) x = blocksOf m x ++ [blockAt m x] := by
  simp only [blocksOf, List.range_succ, List.map_append, List.map_cons, List.map_nil]

theorem flatten_blocksOf (m : Nat) (x : List Byte) : (blocksOf m x).flatten = x.take (16 * m) := by
  induction m with
  | zero => rfl
  | succ m ih => rw [blocksOf_succ, List.flatten_append, ih, List.flatten_singleton, Nat.mul_succ, List.take_add]; rfl

theorem flatten_length_of_blocks {bs : List (List Byte)} (hbs : ∀ b ∈ bs, b.length = 16) :
    bs.flatten.length = 16 * bs.length := by
  induction bs with
  | nil => rfl
  | cons b bs ih =>
    obtain ⟨hb, hbs⟩ := List.forall_mem_cons.1 hbs
    rw [List.flatten_cons, List.length_append, hb, ih hbs, List.length_cons, Nat.mul_succ, Nat.add_comm]

theorem blocksOf_flatten {bs : List (List Byte)} (hbs : ∀ b ∈ bs, b.length = 16) :
    blocksOf bs.length bs.flatten = bs := by
  refine List.ext_getElem (blocksOf_length _ _) fun k _ hk => ?_
  simp only [blocksOf, List.getElem_map, List.getElem_range, blockAt_flatten hbs, List.getD_eq_getElem _ _ hk]

/-- A byte sequence of whole blocks is the concatenation of them. -/
theorem exists_blocks {x : List Byte} (hx : x.length % 16 = 0) :
    ∃ bs : List (List Byte), (∀ b ∈ bs, b.length = 16) ∧ x = bs.flatten := by
  refine ⟨blocksOf (x.length / 16) x, fun b hb => ?_, ?_⟩
  · obtain ⟨k, hk, rfl⟩ := List.mem_map.1 hb
    have := List.mem_range.1 hk
    rw [blockAt_length]
    omega
  · rw [flatten_blocksOf, List.take_of_length_le (by omega)]

/-! #### The chaining loops, block by block (R160, R161) -/

@[simp] theorem encBlock_length (ks : List Word) (r : Nat) (blk : List Byte) : (encBlock ks r blk).length = 16 :=
  storeBlock_length (encWork ks r blk)

@[simp] theorem decBlock_length (ks : List Word) (r : Nat) (blk : List Byte) : (decBlock ks r blk).length = 16 :=
  storeBlock_length (decWork ks r blk)

/-- The blocks that R160's loop puts out, from PREV_C and PREV_P on. -/
def encBlocks (ks : List Word) (r : Nat) (prevC prevP : List Byte) : List (List Byte) → List (List Byte)
  | [] => []
  | b :: bs =>
    let c := encBlock ks r (xorBytes (xorBytes b prevC) prevP)
    c :: encBlocks ks r c b bs

/-- The blocks that R161's loop puts out, from PREV_C and PREV_P on. -/
def decBlocks (ks : List Word) (r : Nat) (prevC prevP : List Byte) : List (List Byte) → List (List Byte)
  | [] => []
  | b :: bs =>
    let p := xorBytes (xorBytes (decBlock ks r b) prevC) prevP
    p :: decBlocks ks r b p bs

section Chaining

variable (ks : List Word) (r : Nat)

theorem foldl_pcbcEncStep_out (bs : List (List Byte)) (x : Chaining) :
    (bs.foldl (pcbcEncStep ks r) x).out = x.out ++ (encBlocks ks r x.prevC x.prevP bs).flatten := by
  induction bs generalizing x with
  | nil => exact (List.append_nil _).symm
  | cons b bs ih =>
    rw [List.foldl_cons, ih]
    exact List.append_assoc _ _ _

theorem foldl_pcbcDecStep_out (bs : List (List Byte)) (x : Chaining) :
    (bs.foldl (pcbcDecStep ks r) x).out = x.out ++ (decBlocks ks r x.prevC x.prevP bs).flatten := by
  induction bs generalizing x with
  | nil => exact (List.append_nil _).symm
  | cons b bs ih =>
    rw [List.foldl_cons, ih]
    exact List.append_assoc _ _ _

theorem pcbcEnc_flatten {bs : List (List Byte)} (hbs : ∀ b ∈ bs, b.length = 16) (iv : List Byte) :
    pcbcEnc ks r bs.flatten iv = (encBlocks ks r iv zero16 bs).flatten := by
  have hm : bs.flatten.length / 16 = bs.length := by rw [flatten_length_of_blocks hbs]; omega
  rw [pcbcEnc, pcbcEncRun, hm, blocksOf_flatten hbs, foldl_pcbcEncStep_out]
  rfl

theorem pcbcDec_flatten {bs : List (List Byte)} (hbs : ∀ b ∈ bs, b.length = 16) (iv : List Byte) :
    pcbcDec ks r bs.flatten iv = (decBlocks ks r iv zero16 bs).flatten := by
  have hm : bs.flatten.length / 16 = bs.length := by rw [flatten_length_of_blocks hbs]; omega
  rw [pcbcDec, pcbcDecRun, hm, blocksOf_flatten hbs, foldl_pcbcDecStep_out]
  rfl

@[simp] theorem encBlocks_length (c p : List Byte) (bs : List (List Byte)) :
    (encBlocks ks r c p bs).length = bs.length := by
  induction bs generalizing c p with
  | nil => rfl
  | cons b bs ih => exact congrArg (· + 1) (ih _ _)

@[simp] theorem decBlocks_length (c p : List Byte) (bs : List (List Byte)) :
    (decBlocks ks r c p bs).length = bs.length := by
  induction bs generalizing c p with
  | nil => rfl
  | cons b bs ih => exact congrArg (· + 1) (ih _ _)

theorem encBlocks_blocks (c p : List Byte) (bs : List (List Byte)) :
    ∀ e ∈ encBlocks ks r c p bs, e.length = 16 := by
  induction bs generalizing c p with
  | nil => exact List.forall_mem_nil _
  | cons b bs ih => exact List.forall_mem_cons.2 ⟨encBlock_length ks r _, ih _ _⟩

theorem decBlocks_blocks {c p : List Byte} (hc : c.length = 16) (hp : p.length = 16) {bs : List (List Byte)}
    (hbs : ∀ b ∈ bs, b.length = 16) : ∀ d ∈ decBlocks ks r c p bs, d.length = 16 := by
  induction bs generalizing c p with
  | nil => exact List.forall_mem_nil _
  | cons b bs ih =>
    obtain ⟨hb, hbs⟩ := List.forall_mem_cons.1 hbs
    have hd := xorBytes_length_sixteen (xorBytes_length_sixteen (decBlock_length ks r b) hc) hp
    exact List.forall_mem_cons.2 ⟨hd, ih hb hd hbs⟩

/-- The recurrence of R160: the sequences of PREV_C and PREV_P are those of the blocks, one place later. -/
theorem encBlocks_getD (c p : List Byte) {bs : List (List Byte)} {k : Nat} (hk : k < bs.length) :
    (encBlocks ks r c p bs).getD k [] =
      encBlock ks r (xorBytes (xorBytes (bs.getD k []) ((c :: encBlocks ks r c p bs).getD k []))
        ((p :: bs).getD k [])) := by
  induction bs generalizing c p k with
  | nil => exact absurd hk (Nat.not_lt_zero _)
  | cons b bs ih =>
    cases k with
    | zero => rfl
    | succ k => exact ih _ _ (Nat.lt_of_succ_lt_succ hk)

/-- The recurrence of R161. -/
theorem decBlocks_getD (c p : List Byte) {bs : List (List Byte)} {k : Nat} (hk : k < bs.length) :
    (decBlocks ks r c p bs).getD k [] =
      xorBytes (xorBytes (decBlock ks r (bs.getD k [])) ((c :: bs).getD k []))
        ((p :: decBlocks ks r c p bs).getD k []) := by
  induction bs generalizing c p k with
  | nil => exact absurd hk (Nat.not_lt_zero _)
  | cons b bs ih =>
    cases k with
    | zero => rfl
    | succ k => exact ih _ _ (Nat.lt_of_succ_lt_succ hk)

/-- R161's inverse law: both loops hold the same PREV_C and PREV_P before every block. -/
theorem decBlocks_encBlocks {c p : List Byte} (hc : c.length = 16) (hp : p.length = 16) {bs : List (List Byte)}
    (hbs : ∀ b ∈ bs, b.length = 16) : decBlocks ks r c p (encBlocks ks r c p bs) = bs := by
  induction bs generalizing c p with
  | nil => rfl
  | cons b bs ih =>
    obtain ⟨hb, hbs⟩ := List.forall_mem_cons.1 hbs
    have hcp := xorBytes_length_sixteen hc hp
    have hx := xorBytes_length_sixteen hb hcp
    have hblock : xorBytes (xorBytes (decBlock ks r (encBlock ks r (xorBytes (xorBytes b c) p))) c) p = b := by
      rw [xorBytes_assoc b, decBlock_encBlock ks r hx, xorBytes_assoc, xorBytes_comm, xorBytes_comm b,
        xorBytes_cancel_left (hb.trans hcp.symm)]
    simp only [encBlocks, decBlocks, hblock]
    rw [ih (encBlock_length ks r _) hb hbs]

/-! #### PcbcEnc and PcbcDec as recurrences on byte sequences -/

variable {iv : List Byte} (hiv : iv.length = 16)

theorem pcbcEnc_length {pp : List Byte} (hpp : pp.length % 16 = 0) (iv : List Byte) :
    (pcbcEnc ks r pp iv).length = pp.length := by
  obtain ⟨bs, hbs, rfl⟩ := exists_blocks hpp
  rw [pcbcEnc_flatten ks r hbs, flatten_length_of_blocks (encBlocks_blocks ks r _ _ bs), encBlocks_length,
    flatten_length_of_blocks hbs]

include hiv

theorem pcbcDec_length {ct : List Byte} (hct : ct.length % 16 = 0) : (pcbcDec ks r ct iv).length = ct.length := by
  obtain ⟨bs, hbs, rfl⟩ := exists_blocks hct
  rw [pcbcDec_flatten ks r hbs, flatten_length_of_blocks (decBlocks_blocks ks r hiv zero16_length hbs),
    decBlocks_length, flatten_length_of_blocks hbs]

/-- R160, with C[-1] the IV and P[-1] the zero block put in front of the two sequences. -/
theorem blockAt_pcbcEnc {pp : List Byte} (hpp : pp.length % 16 = 0) {k : Nat} (hk : k < pp.length / 16) :
    blockAt k (pcbcEnc ks r pp iv) =
      encBlock ks r (xorBytes (xorBytes (blockAt k pp) (blockAt k (iv ++ pcbcEnc ks r pp iv)))
        (blockAt k (zero16 ++ pp))) := by
  obtain ⟨bs, hbs, rfl⟩ := exists_blocks hpp
  have hes := encBlocks_blocks ks r iv zero16 bs
  rw [flatten_length_of_blocks hbs, Nat.mul_div_cancel_left _ (by decide)] at hk
  rw [pcbcEnc_flatten ks r hbs, ← List.flatten_cons, ← List.flatten_cons, blockAt_flatten hes, blockAt_flatten hbs,
    blockAt_flatten (List.forall_mem_cons.2 ⟨hiv, hes⟩), blockAt_flatten (List.forall_mem_cons.2 ⟨zero16_length, hbs⟩)]
  exact encBlocks_getD ks r iv zero16 hk

/-- R161, with C[-1] the IV and P[-1] the zero block put in front of the two sequences. -/
theorem blockAt_pcbcDec {ct : List Byte} (hct : ct.length % 16 = 0) {k : Nat} (hk : k < ct.length / 16) :
    blockAt k (pcbcDec ks r ct iv) =
      xorBytes (xorBytes (decBlock ks r (blockAt k ct)) (blockAt k (iv ++ ct)))
        (blockAt k (zero16 ++ pcbcDec ks r ct iv)) := by
  obtain ⟨bs, hbs, rfl⟩ := exists_blocks hct
  have hds := decBlocks_blocks ks r hiv zero16_length hbs
  rw [flatten_length_of_blocks hbs, Nat.mul_div_cancel_left _ (by decide)] at hk
  rw [pcbcDec_flatten ks r hbs, ← List.flatten_cons, ← List.flatten_cons, blockAt_flatten hbs, blockAt_flatten hds,
    blockAt_flatten (List.forall_mem_cons.2 ⟨hiv, hbs⟩), blockAt_flatten (List.forall_mem_cons.2 ⟨zero16_length, hds⟩)]
  exact decBlocks_getD ks r iv zero16 hk

theorem pcbcDec_pcbcEnc {pp : List Byte} (hpp : pp.length % 16 = 0) :
    pcbcDec ks r (pcbcEnc ks r pp iv) iv = pp := by
  obtain ⟨bs, hbs, rfl⟩ := exists_blocks hpp
  rw [pcbcEnc_flatten ks r hbs, pcbcDec_flatten ks r (encBlocks_blocks ks r _ _ bs),
    decBlocks_encBlocks ks r hiv zero16_length hbs]

end Chaining

/-! #### Error propagation (R163) -/

theorem blockAt_length_of_lt {x : List Byte} {k : Nat} (hk : k < x.length / 16) : (blockAt k x).length = 16 := by
  rw [blockAt_length]
  omega

theorem decBlock_inj (ks : List Word) (r : Nat) {x y : List Byte} (hx : x.length = 16) (hy : y.length = 16) :
    decBlock ks r x = decBlock ks r y ↔ x = y := by
  refine ⟨fun h => ?_, fun h => h ▸ rfl⟩
  rw [← encBlock_decBlock ks r hx, h, encBlock_decBlock ks r hy]

/-- What decryption xors onto Dec(C[k]): C[k-1] xor P[k-1]. -/
def decMask (ks : List Word) (r : Nat) (iv ct : List Byte) (k : Nat) : List Byte :=
  xorBytes (blockAt k (iv ++ ct)) (blockAt k (zero16 ++ pcbcDec ks r ct iv))

section Mask

variable (ks : List Word) (r : Nat) {iv ct : List Byte} (hiv : iv.length = 16)

include hiv

theorem decMask_zero (ct : List Byte) : decMask ks r iv ct 0 = iv := by
  rw [decMask, blockAt_zero_append hiv, blockAt_zero_append zero16_length, xorBytes_zero16 hiv]

theorem decMask_succ (ct : List Byte) (k : Nat) :
    decMask ks r iv ct (k + 1) = xorBytes (blockAt k ct) (blockAt k (pcbcDec ks r ct iv)) := by
  rw [decMask, blockAt_succ_append hiv, blockAt_succ_append zero16_length]

variable (hct : ct.length % 16 = 0)

include hct

theorem blockAt_pcbcDec_length {k : Nat} (hk : k < ct.length / 16) :
    (blockAt k (pcbcDec ks r ct iv)).length = 16 :=
  blockAt_length_of_lt ((pcbcDec_length ks r hiv hct).symm ▸ hk)

theorem decMask_length {k : Nat} (hk : k ≤ ct.length / 16) : (decMask ks r iv ct k).length = 16 := by
  cases k with
  | zero => rw [decMask_zero ks r hiv, hiv]
  | succ k =>
    rw [decMask_succ ks r hiv]
    exact xorBytes_length_sixteen (blockAt_length_of_lt hk) (blockAt_pcbcDec_length ks r hiv hct hk)

theorem blockAt_pcbcDec_eq_decMask {k : Nat} (hk : k < ct.length / 16) :
    blockAt k (pcbcDec ks r ct iv) = xorBytes (decBlock ks r (blockAt k ct)) (decMask ks r iv ct k) := by
  rw [blockAt_pcbcDec ks r hiv hct hk, xorBytes_assoc, decMask]

end Mask

section TwoCiphertexts

variable (ks : List Word) (r : Nat) {iv ct ct' : List Byte} (hiv : iv.length = 16) (hct : ct.length % 16 = 0)
  (hlen : ct'.length = ct.length) {k : Nat} (hk : k < ct.length / 16)

include hiv hct hlen hk

/-- Under the same mask, the plaintext block tells which ciphertext block it came from. -/
theorem blockAt_pcbcDec_eq_iff_of_decMask_eq (hmask : decMask ks r iv ct' k = decMask ks r iv ct k) :
    blockAt k (pcbcDec ks r ct' iv) = blockAt k (pcbcDec ks r ct iv) ↔ blockAt k ct' = blockAt k ct := by
  have hm := (decMask_length ks r hiv hct hk.le).symm
  have hk' : k < ct'.length / 16 := hlen ▸ hk
  rw [blockAt_pcbcDec_eq_decMask ks r hiv (hlen ▸ hct) hk', blockAt_pcbcDec_eq_decMask ks r hiv hct hk, hmask,
    xorBytes_left_inj ((decBlock_length ks r _).trans hm) ((decBlock_length ks r _).trans hm),
    decBlock_inj ks r (blockAt_length_of_lt hk') (blockAt_length_of_lt hk)]

/-- Of the same ciphertext block, the plaintext block tells the mask. -/
theorem blockAt_pcbcDec_eq_iff_decMask_eq (hblock : blockAt k ct' = blockAt k ct) :
    blockAt k (pcbcDec ks r ct' iv) = blockAt k (pcbcDec ks r ct iv) ↔
      decMask ks r iv ct' k = decMask ks r iv ct k := by
  have hd := (decBlock_length ks r (blockAt k ct)).symm
  have hk' : k < ct'.length / 16 := hlen ▸ hk
  have hct' : ct'.length % 16 = 0 := hlen ▸ hct
  rw [blockAt_pcbcDec_eq_decMask ks r hiv hct' hk', blockAt_pcbcDec_eq_decMask ks r hiv hct hk, hblock,
    xorBytes_right_inj ((decMask_length ks r hiv hct' hk'.le).trans hd) ((decMask_length ks r hiv hct hk.le).trans hd)]

/-- An unchanged ciphertext block hands the question on to the next mask. -/
theorem decMask_succ_eq_iff (hblock : blockAt k ct' = blockAt k ct) :
    decMask ks r iv ct' (k + 1) = decMask ks r iv ct (k + 1) ↔ decMask ks r iv ct' k = decMask ks r iv ct k := by
  have hc := (blockAt_length_of_lt hk).symm
  have hp := blockAt_pcbcDec_length ks r hiv hct hk
  have hp' := blockAt_pcbcDec_length ks r hiv (hlen ▸ hct : ct'.length % 16 = 0) (hlen ▸ hk : k < ct'.length / 16)
  rw [decMask_succ ks r hiv, decMask_succ ks r hiv, hblock, xorBytes_right_inj (hp'.trans hc) (hp.trans hc),
    blockAt_pcbcDec_eq_iff_decMask_eq ks r hiv hct hlen hk hblock]

/-- R163 (c): under the same mask, a changed ciphertext block leaves the next mask exactly at the cancellation. -/
theorem decMask_succ_eq_iff_cancels (hmask : decMask ks r iv ct' k = decMask ks r iv ct k) :
    decMask ks r iv ct' (k + 1) = decMask ks r iv ct (k + 1) ↔
      xorBytes (decBlock ks r (blockAt k ct')) (decBlock ks r (blockAt k ct)) =
        xorBytes (blockAt k ct') (blockAt k ct) := by
  have hk' : k < ct'.length / 16 := hlen ▸ hk
  have hc := blockAt_length_of_lt hk
  have hc' := blockAt_length_of_lt hk'
  have hd := decBlock_length ks r (blockAt k ct)
  have hd' := decBlock_length ks r (blockAt k ct')
  have hm := (decMask_length ks r hiv hct hk.le).symm
  rw [decMask_succ ks r hiv, decMask_succ ks r hiv, blockAt_pcbcDec_eq_decMask ks r hiv (hlen ▸ hct) hk',
    blockAt_pcbcDec_eq_decMask ks r hiv hct hk, hmask, ← xorBytes_assoc, ← xorBytes_assoc,
    xorBytes_left_inj ((xorBytes_length_sixteen hc' hd').trans hm) ((xorBytes_length_sixteen hc hd).trans hm),
    xorBytes_eq_xorBytes_comm hc' hd' hc hd, eq_comm]

omit hk

/-- R163 (a): up to the changed block the masks agree. -/
theorem decMask_eq_of_le (hsame : ∀ j, j ≠ k → blockAt j ct' = blockAt j ct) {j : Nat} (hjk : j ≤ k)
    (hj : j ≤ ct.length / 16) : decMask ks r iv ct' j = decMask ks r iv ct j := by
  induction j with
  | zero => rw [decMask_zero ks r hiv, decMask_zero ks r hiv]
  | succ j ih =>
    exact (decMask_succ_eq_iff ks r hiv hct hlen hj (hsame j (by omega))).2 (ih (by omega) (by omega))

include hk

/-- R163 (c): from the changed block on, the masks agree exactly at the cancellation. -/
theorem decMask_eq_iff_cancels (hsame : ∀ j, j ≠ k → blockAt j ct' = blockAt j ct) {j : Nat} (hkj : k < j)
    (hj : j ≤ ct.length / 16) :
    decMask ks r iv ct' j = decMask ks r iv ct j ↔
      xorBytes (decBlock ks r (blockAt k ct')) (decBlock ks r (blockAt k ct)) =
        xorBytes (blockAt k ct') (blockAt k ct) := by
  induction j, hkj using Nat.le_induction with
  | base =>
    exact decMask_succ_eq_iff_cancels ks r hiv hct hlen hk (decMask_eq_of_le ks r hiv hct hlen hsame le_rfl hk.le)
  | succ j hkj ih =>
    exact (decMask_succ_eq_iff ks r hiv hct hlen hj (hsame j (by omega))).trans (ih (by omega))

end TwoCiphertexts

end Sys2Proof.Machine

namespace Sys2Proof.Proofs

open Sys2Proof.Machine

/-- Settles O38: block 0 is the recurrence with the IV and the zero block before the first blocks. -/
theorem pcbcEncryptionRecurrence : Obligations.PcbcEncryptionRecurrence := by
  refine fun ks r pp iv hpp hiv => ⟨pcbcEnc_length ks r hpp iv, fun hpos => ?_, fun k hk hkm => ?_⟩
  · have hk : 0 < pp.length / 16 := by omega
    have hx := xorBytes_length_sixteen (blockAt_length_of_lt hk) hiv
    rw [blockAt_pcbcEnc ks r hiv hpp hk, blockAt_zero_append hiv, blockAt_zero_append zero16_length,
      xorBytes_zero16 hx]
  · obtain ⟨j, rfl⟩ := Nat.exists_eq_add_of_le' hk
    rw [blockAt_pcbcEnc ks r hiv hpp hkm, blockAt_succ_append hiv, blockAt_succ_append zero16_length,
      Nat.add_sub_cancel]

/-- Settles O39: the recurrence as for encryption; the inverse law by induction on the blocks. -/
theorem pcbcDecryptionInverts : Obligations.PcbcDecryptionInverts := by
  refine fun ks r iv hiv => ⟨fun ct hct => ⟨pcbcDec_length ks r hiv hct, fun hpos => ?_, fun k hk hkm => ?_⟩,
    fun pp hpp => pcbcDec_pcbcEnc ks r hiv hpp⟩
  · have hx := xorBytes_length_sixteen (decBlock_length ks r (blockAt 0 ct)) hiv
    rw [blockAt_pcbcDec ks r hiv hct (by omega), blockAt_zero_append hiv, blockAt_zero_append zero16_length,
      xorBytes_zero16 hx]
  · obtain ⟨j, rfl⟩ := Nat.exists_eq_add_of_le' hk
    rw [blockAt_pcbcDec ks r hiv hct hkm, blockAt_succ_append hiv, blockAt_succ_append zero16_length,
      Nat.add_sub_cancel]

/-- Settles O40: the masks agree up to the changed block, and after it exactly at the cancellation. -/
theorem pcbcErrorPropagation : Obligations.PcbcErrorPropagation := by
  intro ks r iv ct ct' k hiv hct hlen hk hchanged hsame
  refine ⟨fun j hjk => ?_, fun heq => hchanged ?_, fun j hkj hj => ?_⟩
  · have hmask := decMask_eq_of_le ks r hiv hct hlen hsame hjk.le (by omega)
    exact (blockAt_pcbcDec_eq_iff_decMask_eq ks r hiv hct hlen (by omega) (hsame j (by omega))).2 hmask
  · have hmask := decMask_eq_of_le ks r hiv hct hlen hsame le_rfl hk.le
    exact (blockAt_pcbcDec_eq_iff_of_decMask_eq ks r hiv hct hlen hk hmask).1 heq
  · exact (blockAt_pcbcDec_eq_iff_decMask_eq ks r hiv hct hlen hj (hsame j (by omega))).trans
      (decMask_eq_iff_cancels ks r hiv hct hlen hk hsame hkj hj.le)

end Sys2Proof.Proofs

/-! ### The message commands (43_pcbc.md R164, R165) -/

namespace Sys2Proof.Machine

/-! #### Padding (R180, R181) -/

/-- The answers of PadCount, each with the checks of R181 that lead to it. -/
inductive PadVerdict (bs : Nat) (m : List Byte) : Except DetailCode Nat → Prop where
  | empty : m = [] → PadVerdict bs m (.error .padEmpty)
  | zero : m ≠ [] → (m.getLastD 0).toNat = 0 → PadVerdict bs m (.error .padZero)
  | gtBlock : m ≠ [] → bs < (m.getLastD 0).toNat → PadVerdict bs m (.error .padGtBlock)
  | gtLen : m ≠ [] → (m.getLastD 0).toNat ≤ bs → m.length < (m.getLastD 0).toNat → PadVerdict bs m (.error .padGtLen)
  | mismatch : 1 ≤ (m.getLastD 0).toNat → (m.getLastD 0).toNat ≤ bs → (m.getLastD 0).toNat ≤ m.length →
      ¬ (∀ b ∈ m.drop (m.length - (m.getLastD 0).toNat), b = m.getLastD 0) → PadVerdict bs m (.error .padMismatch)
  | counted : 1 ≤ (m.getLastD 0).toNat → (m.getLastD 0).toNat ≤ bs → (m.getLastD 0).toNat ≤ m.length →
      (∀ b ∈ m.drop (m.length - (m.getLastD 0).toNat), b = m.getLastD 0) → PadVerdict bs m (.ok (m.getLastD 0).toNat)

theorem padCount_verdict (bs : Nat) (m : List Byte) : PadVerdict bs m (padCount bs m) := by
  simp only [padCount, List.length_eq_zero_iff, List.all_eq_true, beq_iff_eq]
  split
  next hempty => exact .empty hempty
  next hne =>
    split
    next hzero => exact .zero hne hzero
    next hpos =>
      split
      next hbs => exact .gtBlock hne hbs
      next hbs =>
        split
        next hlen => exact .gtLen hne (by omega) hlen
        next hlen =>
          split
          next htail => exact .counted (by omega) (by omega) (by omega) htail
          next htail => exact .mismatch (by omega) (by omega) (by omega) htail

theorem padCount_le_length {bs : Nat} {m : List Byte} {n : Nat} (h : padCount bs m = .ok n) : n ≤ m.length := by
  have hv := padCount_verdict bs m
  rw [h] at hv
  cases hv with
  | counted _ _ hlen => exact hlen

theorem padCount_error_result {bs : Nat} {m : List Byte} {d : DetailCode} (h : padCount bs m = .error d) :
    d.result = .paddingError := by
  have hv := padCount_verdict bs m
  rw [h] at hv
  cases hv with
  | empty | zero | gtBlock | gtLen | mismatch => rfl

/-- A sequence of whole blocks has room for any count up to the block size. -/
theorem padCount_ne_padGtLen {m : List Byte} (hm : m.length % 16 = 0) : padCount 16 m ≠ .error .padGtLen := by
  intro h
  have hv := padCount_verdict 16 m
  rw [h] at hv
  cases hv with
  | gtLen hne hbs hlen =>
    have := List.length_pos_iff.2 hne
    omega

theorem padCount_of_trailer {bs n : Nat} {m : List Byte} (hpos : 1 ≤ n) (hbs : n ≤ bs) (hlen : n ≤ m.length)
    (hlast : (m.getLastD 0).toNat = n) (htail : ∀ b ∈ m.drop (m.length - n), b = m.getLastD 0) :
    padCount bs m = .ok n := by
  have hv := padCount_verdict bs m
  generalize padCount bs m = v at hv
  subst hlast
  cases hv with
  | empty hempty =>
    rw [hempty] at hpos
    exact absurd hpos (by decide)
  | zero _ hzero => omega
  | gtBlock _ hgt => omega
  | gtLen _ _ hgt => omega
  | mismatch _ _ _ hbad => exact absurd htail hbad
  | counted => rfl

/-- R180, R181: PadCount finds the count that Pad appended. -/
theorem padCount_padBytes {bs : Nat} (hpos : 0 < bs) (hbs : bs < 256) (m : List Byte) :
    padCount bs (padBytes bs m) = .ok (padLength bs m) := by
  have hmod := Nat.mod_lt m.length hpos
  obtain ⟨k, hk⟩ : ∃ k, padLength bs m = k + 1 := Nat.exists_eq_add_of_le' (Nat.sub_pos_of_lt hmod)
  have hle : padLength bs m ≤ bs := Nat.sub_le _ _
  have hlast : (padBytes bs m).getLastD 0 = BitVec.ofNat 8 (padLength bs m) := by
    rw [padBytes, hk, List.replicate_succ', ← List.append_assoc, List.getLastD_concat]
  have hlen : (padBytes bs m).length - padLength bs m = m.length := by simp [padBytes]
  refine padCount_of_trailer (by omega) hle (by simp [padBytes]) ?_ fun b hb => ?_
  · rw [hlast, BitVec.toNat_ofNat]
    omega
  · rw [hlen, padBytes, List.drop_left] at hb
    rw [hlast, List.eq_of_mem_replicate hb]

theorem padBytes_sixteen_length (m : List Byte) : (padBytes 16 m).length = 16 * (m.length / 16 + 1) := by
  rw [padBytes_length]
  omega

/-! #### The checks of R222 steps 4 to 6 -/

theorem State.checkIvLen_of_sixteen {s : State} (hbb : s.config.blockBytes = 16) (h : s.ivLen = 16) :
    s.checkIvLen = none := by
  rw [State.checkIvLen, hbb]
  exact if_pos h

theorem State.checkIvLen_of_other {s : State} (hbb : s.config.blockBytes = 16) (h : s.ivLen ≠ 16) :
    s.checkIvLen = some .ivLen := by
  rw [State.checkIvLen, hbb]
  exact if_neg h

/-- The checks that begin those of both message commands (R222 steps 2 to 4), then others. -/
def State.messageChecks (s : State) (rest : List (Option DetailCode)) : Option DetailCode :=
  firstFailure (s.checkCipherConfig :: s.checkKeyLen :: s.checkIvLen :: rest)

theorem State.encryptChecks_eq (s : State) : s.encryptChecks = s.messageChecks [s.checkRoomToPad] := rfl

theorem State.decryptChecks_eq (s : State) :
    s.decryptChecks = s.messageChecks [s.checkFits, s.checkWholeBlocks] := rfl

section Checks

variable {s : State} (rest : List (Option DetailCode))

theorem State.messageChecks_of_unset (hc : ¬ s.CipherConfigured) :
    s.messageChecks rest = some .notConfigured := by
  rw [State.messageChecks, checkCipherConfig_of_unset hc, firstFailure_some]

theorem State.messageChecks_of_illegal_keyLen (hc : s.CipherConfigured) (hk : ¬ s.KeyLenLegal) :
    s.messageChecks rest = some .keyLen := by
  rw [State.messageChecks, checkCipherConfig_of_set hc, checkKeyLen_of_illegal hk, firstFailure_none,
    firstFailure_some]

theorem State.messageChecks_of_other_ivLen (hc : s.CipherConfigured) (hk : s.KeyLenLegal)
    (hbb : s.config.blockBytes = 16) (hiv : s.ivLen ≠ 16) : s.messageChecks rest = some .ivLen := by
  rw [State.messageChecks, checkCipherConfig_of_set hc, checkKeyLen_of_legal hk, checkIvLen_of_other hbb hiv,
    firstFailure_none, firstFailure_none, firstFailure_some]

theorem State.messageChecks_of_legal (hc : s.CipherConfigured) (hk : s.KeyLenLegal)
    (hbb : s.config.blockBytes = 16) (hiv : s.ivLen = 16) : s.messageChecks rest = firstFailure rest := by
  rw [State.messageChecks, checkCipherConfig_of_set hc, checkKeyLen_of_legal hk, checkIvLen_of_sixteen hbb hiv,
    firstFailure_none, firstFailure_none, firstFailure_none]

end Checks

/-- What R222 steps 2 to 4 ask of a message command, at the one block size. -/
structure State.MessageReady (s : State) : Prop where
  configured : s.CipherConfigured
  keyLen     : s.KeyLenLegal
  block      : s.config.blockBytes = 16
  ivLen      : s.ivLen = 16

namespace State.MessageReady

variable {s : State} (h : s.MessageReady)

include h

theorem congr {u : State} (hcfg : u.config = s.config) (hkeyLen : u.keyLen = s.keyLen) (hivLen : u.ivLen = s.ivLen) :
    u.MessageReady := by
  obtain ⟨hc, hk, hbb, hiv⟩ := h
  rw [State.CipherConfigured, ← hcfg] at hc
  rw [State.KeyLenLegal, ← hkeyLen] at hk
  exact ⟨hc, hk, hcfg ▸ hbb, hivLen.trans hiv⟩

theorem blockSize : s.blockSize = 16 := congrArg BitVec.toNat h.block

theorem encryptChecks : s.encryptChecks = firstFailure [s.checkRoomToPad] :=
  s.encryptChecks_eq.trans (State.messageChecks_of_legal _ h.configured h.keyLen h.block h.ivLen)

theorem encryptChecks_of_lt (hlen : s.msgLen.toNat < s.params.bufBytes) : s.encryptChecks = none := by
  rw [h.encryptChecks, State.checkRoomToPad, if_neg (Nat.not_le.2 hlen)]
  rfl

theorem encryptChecks_of_ge (hlen : s.params.bufBytes ≤ s.msgLen.toNat) : s.encryptChecks = some .msgLenRange := by
  rw [h.encryptChecks, State.checkRoomToPad, if_pos hlen]
  rfl

theorem decryptChecks : s.decryptChecks = firstFailure [s.checkFits, s.checkWholeBlocks] :=
  s.decryptChecks_eq.trans (State.messageChecks_of_legal _ h.configured h.keyLen h.block h.ivLen)

theorem decryptChecks_of_blocks (hlen : s.msgLen.toNat ≤ s.params.bufBytes) (hmod : s.msgLen.toNat % 16 = 0) :
    s.decryptChecks = none := by
  rw [h.decryptChecks, State.checkFits, if_neg (Nat.not_lt.2 hlen), State.checkWholeBlocks, if_pos hmod]
  rfl

theorem decryptChecks_of_gt (hlen : s.params.bufBytes < s.msgLen.toNat) : s.decryptChecks = some .msgLenRange := by
  rw [h.decryptChecks, State.checkFits, if_pos hlen]
  rfl

theorem decryptChecks_of_part (hlen : s.msgLen.toNat ≤ s.params.bufBytes) (hmod : s.msgLen.toNat % 16 ≠ 0) :
    s.decryptChecks = some .ctNotBlockMultiple := by
  rw [h.decryptChecks, State.checkFits, if_neg (Nat.not_lt.2 hlen), State.checkWholeBlocks, if_neg hmod]
  rfl

end State.MessageReady

/-! #### What both commands leave behind -/

/-- The success of a message command whose chaining loop ends with x. -/
def State.messageDone (s : State) (x : Chaining) (n : Nat) : State :=
  ((s.runKeySchedule.putChaining x).putOut x.out n).completeOk

/-- The PADDING_ERROR of DECRYPT_MSG, which comes after the key schedule and the chaining loop. -/
def State.paddingRefused (s : State) (x : Chaining) (d : DetailCode) : State :=
  (s.runKeySchedule.putChaining x).raiseScrub d

section After

variable (s : State) (x : Chaining)

/-- The key schedule of any round count fits the subkey RAM. -/
theorem State.expand_length_le : (expand s.keyBytes s.rounds).length ≤ Config.tMax := by
  have hr : s.rounds ≤ 255 := s.rounds_le
  rw [expand_length, Config.tMax]
  omega

theorem State.messageDone_onlyCipher (n : Nat) : OnlyCipher s (s.messageDone x n) := by
  cases s
  rfl

theorem State.messageDone_holdsSubkeys (n : Nat) :
    HoldsSubkeys (s.messageDone x n) (expand s.keyBytes s.rounds) :=
  HoldsSubkeys.putOut (s := s.runKeySchedule.putChaining x) s.runKeySchedule_holdsSubkeys s.expand_length_le x.out n

theorem State.messageDone_holdsOutput {x : Chaining} {out : List Byte} (hout : x.out = out) (n : Nat) :
    HoldsOutput (s.messageDone x n) out :=
  hout ▸ (s.runKeySchedule.putChaining x).putOut_holdsOutput x.out n

theorem State.messageDone_outLen_toNat (hp : s.params.Legal) {n : Nat} (hn : n ≤ s.params.bufBytes) :
    (s.messageDone x n).outLen.toNat = n := by
  obtain ⟨-, -, hmax, -⟩ := hp
  exact Nat.mod_eq_of_lt (by omega : n < 2 ^ 32)

theorem State.messageDone_ramUnchangedOutside {x : Chaining} {len : Nat} (hlen : x.out.length = len) (n : Nat) :
    RamUnchangedOutside (fun a => inSubkeys (2 * s.rounds + 4) a ∨ inOutput len a) s (s.messageDone x n) :=
  hlen ▸ RamUnchangedOutside.putOut (t := s.runKeySchedule.putChaining x) s.runKeySchedule_ramUnchangedOutside x.out n

variable (d : DetailCode)

theorem State.paddingRefused_onlyCipher : OnlyCipher s (s.paddingRefused x d) := by
  cases s
  rfl

theorem State.paddingRefused_holdsSubkeys :
    HoldsSubkeys (s.paddingRefused x d) (expand s.keyBytes s.rounds) :=
  HoldsSubkeys.putOut (s := s.runKeySchedule.putChaining x) s.runKeySchedule_holdsSubkeys s.expand_length_le
    (List.replicate s.params.bufBytes 0) 0

theorem State.paddingRefused_outputScrubbed : OutputScrubbed (s.paddingRefused x d) := by
  obtain ⟨-, -, hscrub, -⟩ := failsScrubbed_raiseScrub (s.runKeySchedule.putChaining x) d
  exact hscrub

theorem State.paddingRefused_ramUnchangedOutside :
    RamUnchangedOutside (fun a => inSubkeys (2 * s.rounds + 4) a ∨ inOutput s.params.bufBytes a) s
      (s.paddingRefused x d) := by
  have h := RamUnchangedOutside.putOut (t := s.runKeySchedule.putChaining x) s.runKeySchedule_ramUnchangedOutside
    (List.replicate s.params.bufBytes 0) 0
  rwa [List.length_replicate] at h

end After

/-- A message command that answers each failed check with the scrub fails so where CONFIG, KEY_LEN or IV_LEN is not
legal. -/
theorem failsScrubbed_of_messageChecks {s : State} {o : Host.Outcome State Fault Refusal}
    {rest : List (Option DetailCode)} (hbb : s.config.blockBytes = 0 ∨ s.config.blockBytes = 16)
    (hfail : ∀ d, s.messageChecks rest = some d → o = .next (s.raiseScrub d)) :
    (¬ s.CipherConfigured → ∃ t, o = .next t ∧ FailsScrubbed s t .configError .notConfigured) ∧
    (s.CipherConfigured → ¬ s.KeyLenLegal → ∃ t, o = .next t ∧ FailsScrubbed s t .argError .keyLen) ∧
    (s.CipherConfigured → s.KeyLenLegal → s.ivLen ≠ 16 → ∃ t, o = .next t ∧ FailsScrubbed s t .argError .ivLen) := by
  refine ⟨fun hc => ?_, fun hc hk => ?_, fun hc hk hiv => ?_⟩
  · exact ⟨_, hfail _ (State.messageChecks_of_unset _ hc), failsScrubbed_raiseScrub s _⟩
  · exact ⟨_, hfail _ (State.messageChecks_of_illegal_keyLen _ hc hk), failsScrubbed_raiseScrub s _⟩
  · exact ⟨_, hfail _ (State.messageChecks_of_other_ivLen _ hc hk (hbb.resolve_left hc.2) hiv),
      failsScrubbed_raiseScrub s _⟩

/-! #### ENCRYPT_MSG (R164) -/

@[simp] theorem State.ivBytes_length (s : State) : s.ivBytes.length = 16 := by
  rw [State.ivBytes, leBytes_length, Vector.length_toList]

/-- The ciphertext of the state's message, at the one block size. -/
def State.ciphertext (s : State) : List Byte :=
  pcbcEnc (expand s.keyBytes s.rounds) s.rounds (padBytes 16 s.message) s.ivBytes

theorem State.ciphertext_length (s : State) : s.ciphertext.length = 16 * (s.msgLen.toNat / 16 + 1) := by
  have hpad := padBytes_sixteen_length s.message
  rw [State.ciphertext, pcbcEnc_length _ _ (by omega), hpad, s.message_length]

/-- BUF_BYTES is whole blocks, so it has room for the padding of any shorter message. -/
theorem State.ciphertext_length_le {s : State} (hp : s.params.Legal) (hlen : s.msgLen.toNat < s.params.bufBytes) :
    s.ciphertext.length ≤ s.params.bufBytes := by
  obtain ⟨hmod, -, -, -⟩ := hp
  rw [s.ciphertext_length]
  omega

theorem execEncryptMsg_of_fail {s : State} {d : DetailCode} (h : s.encryptChecks = some d) :
    execEncryptMsg s = .next (s.raiseScrub d) := by
  unfold execEncryptMsg
  rw [h]

theorem State.MessageReady.execEncryptMsg_eq {s : State} (h : s.MessageReady)
    (hlen : s.msgLen.toNat < s.params.bufBytes) :
    ∃ x : Chaining, x.out = s.ciphertext ∧ execEncryptMsg s = .next (s.messageDone x s.ciphertext.length) := by
  have hout := pcbcEncRun_out s.subkeys s.rounds (padBytes 16 s.message) s.ivBytes blankWork s.work
  refine ⟨_, hout, ?_⟩
  unfold execEncryptMsg
  rw [h.encryptChecks_of_lt hlen, h.blockSize]
  exact congrArg (fun c : List Byte => Host.Outcome.next (s.messageDone _ c.length)) hout

/-! #### DECRYPT_MSG (R165) -/

/-- The decryption of the state's message, padding included. -/
def State.decryption (s : State) : List Byte :=
  pcbcDec (expand s.keyBytes s.rounds) s.rounds s.message s.ivBytes

theorem State.decryption_length {s : State} (hmod : s.msgLen.toNat % 16 = 0) :
    s.decryption.length = s.msgLen.toNat := by
  rw [State.decryption, pcbcDec_length _ _ s.ivBytes_length (s.message_length.symm ▸ hmod), s.message_length]

theorem execDecryptMsg_of_fail {s : State} {d : DetailCode} (h : s.decryptChecks = some d) :
    execDecryptMsg s = .next (s.raiseScrub d) := by
  unfold execDecryptMsg
  rw [h]

/-- Past its early checks DECRYPT_MSG runs the chaining loop, and PadCount decides how it completes. -/
theorem State.MessageReady.execDecryptMsg_eq {s : State} (h : s.MessageReady)
    (hlen : s.msgLen.toNat ≤ s.params.bufBytes) (hmod : s.msgLen.toNat % 16 = 0) :
    ∃ x : Chaining, x.out = s.decryption ∧
      (∀ n, padCount 16 s.decryption = .ok n → execDecryptMsg s = .next (s.messageDone x (s.msgLen.toNat - n))) ∧
      ∀ d, padCount 16 s.decryption = .error d → execDecryptMsg s = .next (s.paddingRefused x d) := by
  have hout := pcbcDecRun_out s.subkeys s.rounds s.message s.ivBytes blankWork s.work
  refine ⟨_, hout, fun n hn => ?_, fun d hd => ?_⟩
  · have hpad := (congrArg (padCount 16) hout).trans hn
    unfold execDecryptMsg
    simp only [h.decryptChecks_of_blocks hlen hmod, h.blockSize, hpad]
    rfl
  · have hpad := (congrArg (padCount 16) hout).trans hd
    unfold execDecryptMsg
    simp only [h.decryptChecks_of_blocks hlen hmod, h.blockSize, hpad]
    rfl

/-! #### The round trip -/

/-- Bytes of RAM that are those of a list, read back as the list. -/
theorem State.bytesAt_eq_of_getD {s : State} {base : Nat} {bs : List Byte}
    (h : ∀ o, o < bs.length → s.byteAt (base + o) = bs.getD o 0) : s.bytesAt base bs.length = bs := by
  refine List.ext_getElem (s.bytesAt_length _ _) fun o _ ho => ?_
  rw [← List.getD_eq_getElem _ 0, s.bytesAt_getD _ _ _ ho, h o ho, List.getD_eq_getElem _ 0 ho]

/-- With the same configuration, key and IV, decrypting the ciphertext gives the padded message (R161). -/
theorem State.decryption_of_ciphertext {s u : State} (hcfg : u.config = s.config) (hkey : u.key = s.key)
    (hkeyLen : u.keyLen = s.keyLen) (hiv : u.iv = s.iv) (hmsg : u.message = s.ciphertext) :
    u.decryption = padBytes 16 s.message := by
  have hkeyBytes : u.keyBytes = s.keyBytes := by rw [State.keyBytes, hkey, hkeyLen, State.keyBytes]
  have hrounds : u.rounds = s.rounds := by rw [State.rounds, hcfg, State.rounds]
  have hivBytes : u.ivBytes = s.ivBytes := by rw [State.ivBytes, hiv, State.ivBytes]
  rw [State.decryption, hmsg, hkeyBytes, hrounds, hivBytes, State.ciphertext]
  exact pcbcDec_pcbcEnc _ _ s.ivBytes_length (by rw [padBytes_sixteen_length, Nat.mul_mod_right])

end Sys2Proof.Machine

namespace Sys2Proof.Proofs

open Sys2Proof.Machine

/-- Settles O41: the chaining loop puts out the ciphertext, and each failed check scrubs. -/
theorem encryptMsgCommand : Obligations.EncryptMsgCommand := by
  refine ⟨decode_of_fields rfl rfl, fun s hp hbb => ?_⟩
  obtain ⟨hunset, hkeyLen, hivLen⟩ := failsScrubbed_of_messageChecks hbb fun _ => execEncryptMsg_of_fail
  refine ⟨fun hc hk hiv hlen => ?_, hunset, hkeyLen, hivLen, fun hc hk hiv hlen => ?_⟩
  · have hready : s.MessageReady := ⟨hc, hk, hbb.resolve_left hc.2, hiv⟩
    obtain ⟨x, hx, hexec⟩ := hready.execEncryptMsg_eq hlen
    have houtLen := s.messageDone_outLen_toNat x hp (State.ciphertext_length_le hp hlen)
    exact ⟨_, hexec, ⟨rfl, rfl⟩, s.messageDone_onlyCipher x _, s.messageDone_holdsSubkeys x _,
      s.messageDone_holdsOutput hx _, houtLen.trans s.ciphertext_length,
      s.messageDone_ramUnchangedOutside ((congrArg List.length hx).trans houtLen.symm) _⟩
  · have hready : s.MessageReady := ⟨hc, hk, hbb.resolve_left hc.2, hiv⟩
    exact ⟨_, execEncryptMsg_of_fail (hready.encryptChecks_of_ge hlen), failsScrubbed_raiseScrub s _⟩

/-- Settles O42: PadCount decides between the success and the PADDING_ERROR; each failed early check scrubs. -/
theorem decryptMsgCommand : Obligations.DecryptMsgCommand := by
  refine ⟨decode_of_fields rfl rfl, fun s hp hbb => ?_⟩
  obtain ⟨hunset, hkeyLen, hivLen⟩ := failsScrubbed_of_messageChecks hbb fun _ => execDecryptMsg_of_fail
  refine ⟨fun hc hk hiv hlen hmod => ?_, hunset, hkeyLen, hivLen, fun hc hk hiv hlen => ?_,
    fun hc hk hiv hlen hmod => ?_⟩
  · have hready : s.MessageReady := ⟨hc, hk, hbb.resolve_left hc.2, hiv⟩
    have hdec := State.decryption_length hmod
    obtain ⟨x, hx, hdone, hrefused⟩ := hready.execDecryptMsg_eq hlen hmod
    rw [← State.decryption]
    cases hpad : padCount 16 s.decryption with
    | ok n =>
      have hn : n ≤ s.msgLen.toNat := hdec ▸ padCount_le_length hpad
      exact ⟨_, hdone n hpad, s.messageDone_onlyCipher x _, s.messageDone_holdsSubkeys x _, ⟨rfl, rfl⟩,
        s.messageDone_holdsOutput hx _, hn, s.messageDone_outLen_toNat x hp (by omega),
        s.messageDone_ramUnchangedOutside ((congrArg List.length hx).trans hdec) _⟩
    | error d =>
      refine ⟨_, hrefused d hpad, s.paddingRefused_onlyCipher x d, s.paddingRefused_holdsSubkeys x d,
        padCount_error_result hpad ▸ ⟨rfl, rfl⟩, s.paddingRefused_outputScrubbed x d, ?_,
        s.paddingRefused_ramUnchangedOutside x d⟩
      rintro rfl
      exact padCount_ne_padGtLen (hdec.symm ▸ hmod) hpad
  · have hready : s.MessageReady := ⟨hc, hk, hbb.resolve_left hc.2, hiv⟩
    exact ⟨_, execDecryptMsg_of_fail (hready.decryptChecks_of_gt hlen), failsScrubbed_raiseScrub s _⟩
  · have hready : s.MessageReady := ⟨hc, hk, hbb.resolve_left hc.2, hiv⟩
    exact ⟨_, execDecryptMsg_of_fail (hready.decryptChecks_of_part hlen hmod), failsScrubbed_raiseScrub s _⟩

/-- Settles O43: DECRYPT_MSG recovers the padded message, and PadCount the padding that Pad appended. -/
theorem messageRoundTrip : Obligations.MessageRoundTrip := by
  intro s t u hp hr hbb hk hiv hlen hexec hparams hcfg hkey hkeyLen hivReg hivLen hmsgLen hcopy
  have hready : s.MessageReady := ⟨⟨hr, hbb ▸ by decide⟩, hk, hbb, hiv⟩
  obtain ⟨x, hx, hexec'⟩ := hready.execEncryptMsg_eq hlen
  obtain rfl : t = s.messageDone x s.ciphertext.length := Host.Outcome.next.inj (hexec.symm.trans hexec')
  have hfit := State.ciphertext_length_le hp hlen
  have houtLen := s.messageDone_outLen_toNat x hp hfit
  have hulen : u.msgLen.toNat = s.ciphertext.length := (congrArg BitVec.toNat hmsgLen).trans houtLen
  have hmsg : u.message = s.ciphertext := by
    rw [State.message, State.inBytes, hulen]
    exact State.bytesAt_eq_of_getD fun o ho =>
      (hcopy o (houtLen.symm ▸ ho)).trans (s.messageDone_holdsOutput hx _ o ho)
  have hdec := State.decryption_of_ciphertext hcfg hkey hkeyLen hivReg hmsg
  have hpad : padCount 16 u.decryption = .ok (padLength 16 s.message) :=
    hdec ▸ padCount_padBytes (by decide) (by decide) s.message
  have hcount : u.msgLen.toNat - padLength 16 s.message = s.msgLen.toNat := by
    rw [hulen, s.ciphertext_length, padLength, s.message_length]
    omega
  obtain ⟨y, hy, hdone, -⟩ := (hready.congr hcfg hkeyLen hivLen).execDecryptMsg_eq
    (hulen.trans_le (hparams ▸ hfit)) (by rw [hulen, s.ciphertext_length, Nat.mul_mod_right])
  have hv := hdone _ hpad
  rw [hcount] at hv
  refine ⟨_, hv, ⟨rfl, rfl⟩, BitVec.eq_of_toNat_eq ?_, fun o ho => ?_⟩
  · exact u.messageDone_outLen_toNat y (hparams ▸ hp) (hparams ▸ hlen.le)
  · have hmlen : o < s.message.length := s.message_length.symm ▸ ho
    rw [u.messageDone_holdsOutput (hy.trans hdec) _ o (by simp only [padBytes, List.length_append]; omega), padBytes,
      List.getD_append _ _ _ _ hmlen]
    exact s.bytesAt_getD inBase _ o ho

end Sys2Proof.Proofs

/-! ### PKCS7 padding (44_pkcs7.md) -/

namespace Sys2Proof.Machine

/-! #### PadCount and Unpad (R181) -/

/-- The checks of R181 that lead to an answer lead to no other. -/
theorem PadVerdict.padCount_eq {bs : Nat} {m : List Byte} {v : Except DetailCode Nat} (h : PadVerdict bs m v) :
    padCount bs m = v := by
  unfold padCount
  cases h with
  | empty hempty => rw [if_pos (List.length_eq_zero_iff.2 hempty)]
  | zero hne hzero => rw [if_neg (mt List.length_eq_zero_iff.1 hne), if_pos hzero]
  | gtBlock hne hbs => rw [if_neg (mt List.length_eq_zero_iff.1 hne), if_neg (by omega), if_pos hbs]
  | gtLen hne hbs hlen =>
    rw [if_neg (mt List.length_eq_zero_iff.1 hne), if_neg (by omega), if_neg (by omega), if_pos hlen]
  | mismatch hpos hbs hlen htail =>
    rw [if_neg (by omega), if_neg (by omega), if_neg (by omega), if_neg (by omega), if_neg (by simpa using htail)]
  | counted hpos hbs hlen htail =>
    rw [if_neg (by omega), if_neg (by omega), if_neg (by omega), if_neg (by omega), if_pos (by simpa using htail)]

theorem padCount_eq_iff {bs : Nat} {m : List Byte} {v : Except DetailCode Nat} :
    padCount bs m = v ↔ PadVerdict bs m v :=
  ⟨fun h => h ▸ padCount_verdict bs m, PadVerdict.padCount_eq⟩

section Outcomes

variable {bs : Nat} {m : List Byte}

theorem padCount_eq_padEmpty : padCount bs m = .error .padEmpty ↔ m = [] := by
  refine padCount_eq_iff.trans ⟨fun h => ?_, .empty⟩
  cases h with
  | empty hempty => exact hempty

theorem padCount_eq_padZero : padCount bs m = .error .padZero ↔ m ≠ [] ∧ (m.getLastD 0).toNat = 0 := by
  refine padCount_eq_iff.trans ⟨fun h => ?_, fun ⟨hne, hzero⟩ => .zero hne hzero⟩
  cases h with
  | zero hne hzero => exact ⟨hne, hzero⟩

theorem padCount_eq_padGtBlock : padCount bs m = .error .padGtBlock ↔ m ≠ [] ∧ bs < (m.getLastD 0).toNat := by
  refine padCount_eq_iff.trans ⟨fun h => ?_, fun ⟨hne, hbs⟩ => .gtBlock hne hbs⟩
  cases h with
  | gtBlock hne hbs => exact ⟨hne, hbs⟩

theorem padCount_eq_padGtLen :
    padCount bs m = .error .padGtLen ↔
      m ≠ [] ∧ (m.getLastD 0).toNat ≤ bs ∧ m.length < (m.getLastD 0).toNat := by
  refine padCount_eq_iff.trans ⟨fun h => ?_, fun ⟨hne, hbs, hlen⟩ => .gtLen hne hbs hlen⟩
  cases h with
  | gtLen hne hbs hlen => exact ⟨hne, hbs, hlen⟩

/-- The bytes from index k on are all x. -/
theorem forall_mem_drop_eq_iff {k : Nat} {x : Byte} :
    (∀ b ∈ m.drop k, b = x) ↔ ∀ i, k ≤ i → i < m.length → m[i]? = some x := by
  refine ⟨fun h i hk hi => ?_, fun h b hb => ?_⟩
  · have hmem : m[i] ∈ m.drop k := List.mem_drop_iff_getElem.2 ⟨i - k, by omega, by simp [hk]⟩
    rw [List.getElem?_eq_getElem hi, h _ hmem]
  · obtain ⟨i, hi, rfl⟩ := List.mem_drop_iff_getElem.1 hb
    exact (List.getElem_eq_iff _).2 (h _ (by omega) (by omega))

theorem padCount_eq_padMismatch :
    padCount bs m = .error .padMismatch ↔
      1 ≤ (m.getLastD 0).toNat ∧ (m.getLastD 0).toNat ≤ bs ∧ (m.getLastD 0).toNat ≤ m.length ∧
        ∃ i, m.length - (m.getLastD 0).toNat ≤ i ∧ i < m.length ∧ m[i]? ≠ some (m.getLastD 0) := by
  have htail : (∃ i, m.length - (m.getLastD 0).toNat ≤ i ∧ i < m.length ∧ m[i]? ≠ some (m.getLastD 0)) ↔
      ¬ ∀ b ∈ m.drop (m.length - (m.getLastD 0).toNat), b = m.getLastD 0 := by
    rw [forall_mem_drop_eq_iff]
    push Not
    rfl
  rw [htail]
  refine padCount_eq_iff.trans ⟨fun h => ?_, fun ⟨hpos, hbs, hlen, hbad⟩ => .mismatch hpos hbs hlen hbad⟩
  cases h with
  | mismatch hpos hbs hlen hbad => exact ⟨hpos, hbs, hlen, hbad⟩

theorem getLastD_of_getElem? {x : Byte} (h : m[m.length - 1]? = some x) : m.getLastD 0 = x := by
  rw [List.getLastD_eq_getLast?, List.getLast?_eq_getElem?, h, Option.getD_some]

/-- R181: PadCount succeeds exactly on a trailer of n bytes n. -/
theorem padCount_eq_ok (hbs : bs < 256) {n : Nat} :
    padCount bs m = .ok n ↔
      1 ≤ n ∧ n ≤ bs ∧ n ≤ m.length ∧
        ∀ i, m.length - n ≤ i → i < m.length → m[i]? = some (BitVec.ofNat 8 n) := by
  rw [← forall_mem_drop_eq_iff]
  refine ⟨fun h => ?_, fun ⟨hpos, hn, hlen, htail⟩ => ?_⟩
  · cases padCount_eq_iff.1 h with
    | counted hpos hn hlen htail =>
      rw [BitVec.ofNat_toNat, BitVec.setWidth_eq]
      exact ⟨hpos, hn, hlen, htail⟩
  · have hlast : m.getLastD 0 = BitVec.ofNat 8 n :=
      getLastD_of_getElem? (forall_mem_drop_eq_iff.1 htail _ (by omega) (by omega))
    have htoNat : (m.getLastD 0).toNat = n := by
      rw [hlast, BitVec.toNat_ofNat]
      omega
    exact padCount_of_trailer hpos hn hlen htoNat (hlast ▸ htail)

theorem unpadBytes_of_ok {n : Nat} (h : padCount bs m = .ok n) :
    unpadBytes bs m = .ok (m.take (m.length - n)) := by
  rw [unpadBytes, h]

theorem unpadBytes_of_error {d : DetailCode} (h : padCount bs m = .error d) : unpadBytes bs m = .error d := by
  rw [unpadBytes, h]

/-- R181: Unpad undoes Pad. -/
theorem unpadBytes_padBytes (hpos : 0 < bs) (hbs : bs < 256) (m : List Byte) :
    unpadBytes bs (padBytes bs m) = .ok m := by
  have hlen : (padBytes bs m).length - padLength bs m = m.length := by simp [padBytes]
  rw [unpadBytes_of_ok (padCount_padBytes hpos hbs m), hlen, padBytes, List.take_left]

end Outcomes

/-! #### The checks of PAD and UNPAD (R222 steps 2 and 5) -/

section Checks

variable {s : State}

/-- The checks of PAD and UNPAD, up to the one on the length. -/
def State.paddingChecks (s : State) (lengthCheck : Option DetailCode) : Option DetailCode :=
  firstFailure [s.checkBlockConfig, lengthCheck]

theorem State.padChecks_eq (s : State) : s.padChecks = s.paddingChecks s.checkRoomToPad := rfl

theorem State.unpadChecks_eq (s : State) : s.unpadChecks = s.paddingChecks s.checkFits := rfl

theorem State.paddingChecks_of_unset (c : Option DetailCode) (hb : s.config.blockBytes = 0) :
    s.paddingChecks c = some .notConfigured := by
  rw [State.paddingChecks, State.checkBlockConfig, if_pos hb, firstFailure_some]

theorem State.paddingChecks_of_set (c : Option DetailCode) (hb : s.config.blockBytes ≠ 0) :
    s.paddingChecks c = c := by
  rw [State.paddingChecks, State.checkBlockConfig, if_neg hb, firstFailure_none]
  cases c with
  | none => rfl
  | some d => rfl

theorem State.checkRoomToPad_of_lt (hlen : s.msgLen.toNat < s.params.bufBytes) : s.checkRoomToPad = none :=
  if_neg (Nat.not_le.2 hlen)

theorem State.checkRoomToPad_of_ge (hlen : s.params.bufBytes ≤ s.msgLen.toNat) :
    s.checkRoomToPad = some .msgLenRange :=
  if_pos hlen

theorem State.checkFits_of_le (hlen : s.msgLen.toNat ≤ s.params.bufBytes) : s.checkFits = none :=
  if_neg (Nat.not_lt.2 hlen)

theorem State.checkFits_of_gt (hlen : s.params.bufBytes < s.msgLen.toNat) : s.checkFits = some .msgLenRange :=
  if_pos hlen

end Checks

/-! #### What both commands leave behind -/

/-- The success of PAD or UNPAD: the bytes out, and their number to report. -/
def State.paddingDone (s : State) (out : List Byte) (n : Nat) : State := (s.putOut out n).completeOk

section After

variable (s : State) (out : List Byte) (n : Nat)

theorem State.paddingDone_holdsOutput : HoldsOutput (s.paddingDone out n) out := s.putOut_holdsOutput out n

theorem State.paddingDone_ramUnchangedOutside {len : Nat} (hlen : out.length = len) :
    RamUnchangedOutside (inOutput len) s (s.paddingDone out n) :=
  fun a ha => (s.putOut_byteAt out n a).trans (if_neg (hlen.symm ▸ ha))

theorem State.paddingDone_outLen_toNat (hp : s.params.Legal) {n : Nat} (hn : n ≤ s.params.bufBytes) :
    (s.paddingDone out n).outLen.toNat = n := by
  obtain ⟨-, -, hmax, -⟩ := hp
  exact Nat.mod_eq_of_lt (by omega : n < 2 ^ 32)

end After

/-! #### PAD (R182) and UNPAD (R183) -/

section Commands

variable {s : State}

theorem State.blockSize_of_sixteen (hb : s.config.blockBytes = 16) : s.blockSize = 16 := congrArg BitVec.toNat hb

theorem execPad_of_fail {d : DetailCode} (h : s.padChecks = some d) : execPad s = .next (s.raiseScrub d) := by
  rw [execPad, h]

theorem execPad_of_pass (hb : s.config.blockBytes = 16) (h : s.padChecks = none) :
    execPad s = .next (s.paddingDone (padBytes 16 s.message) (padBytes 16 s.message).length) := by
  rw [execPad, h, State.blockSize_of_sixteen hb]
  rfl

theorem execUnpad_of_fail {d : DetailCode} (h : s.unpadChecks = some d) : execUnpad s = .next (s.raiseScrub d) := by
  rw [execUnpad, h]

theorem execUnpad_of_ok (hb : s.config.blockBytes = 16) (h : s.unpadChecks = none) {n : Nat}
    (hn : padCount 16 s.message = .ok n) : execUnpad s = .next (s.paddingDone s.message (s.msgLen.toNat - n)) := by
  simp only [execUnpad, h, State.blockSize_of_sixteen hb, hn, State.message_length, State.paddingDone]

theorem execUnpad_of_error (hb : s.config.blockBytes = 16) (h : s.unpadChecks = none) {d : DetailCode}
    (hd : padCount 16 s.message = .error d) : execUnpad s = .next (s.raiseScrub d) := by
  simp only [execUnpad, h, State.blockSize_of_sixteen hb, hd]

/-- A padding command that answers each failed check with the scrub fails so where BLOCK_BYTES is 0, and where its check
on the length fails. -/
theorem failsScrubbed_of_paddingChecks {o : Host.Outcome State Fault Refusal} {c : Option DetailCode}
    (hfail : ∀ d, s.paddingChecks c = some d → o = .next (s.raiseScrub d)) :
    (s.config.blockBytes = 0 → ∃ t, o = .next t ∧ FailsScrubbed s t .configError .notConfigured) ∧
    (s.config.blockBytes ≠ 0 → c = some .msgLenRange →
      ∃ t, o = .next t ∧ FailsScrubbed s t .argError .msgLenRange) := by
  refine ⟨fun hb => ?_, fun hb hc => ?_⟩
  · exact ⟨_, hfail _ (State.paddingChecks_of_unset c hb), failsScrubbed_raiseScrub s _⟩
  · exact ⟨_, hfail _ ((State.paddingChecks_of_set c hb).trans hc), failsScrubbed_raiseScrub s _⟩

end Commands

end Sys2Proof.Machine

namespace Sys2Proof.Proofs

open Sys2Proof.Machine

/-- Settles O44: the padding fills up the last block, or is a block of its own. -/
theorem padAppendsItsCount : Obligations.PadAppendsItsCount := by
  intro m
  have hmod := Nat.mod_lt m.length (by decide : 0 < 16)
  exact ⟨16 - m.length % 16, by omega, Nat.sub_le _ _, rfl, rfl, padBytes_sixteen_length m⟩

/-- Settles O45: the checks that lead to each answer of PadCount lead to no other. -/
theorem padCountChecks : Obligations.PadCountChecks :=
  ⟨fun _ _ => padCount_eq_ok (by decide), fun _ => padCount_eq_padEmpty, fun _ => padCount_eq_padZero,
    fun _ => padCount_eq_padGtBlock, fun _ => padCount_eq_padGtLen, fun _ => padCount_eq_padMismatch,
    fun _ _ => unpadBytes_of_ok, fun _ _ => unpadBytes_of_error,
    fun m => ⟨unpadBytes_padBytes (by decide) (by decide) m, padCount_padBytes (by decide) (by decide) m⟩⟩

/-- Settles O46: a message shorter than OUT_BUF has room for its padding, and each failed check scrubs. -/
theorem padCommand : Obligations.PadCommand := by
  refine ⟨decode_of_fields rfl rfl, fun s hp => ?_⟩
  obtain ⟨hunset, hrange⟩ := failsScrubbed_of_paddingChecks fun _ => execPad_of_fail (s := s)
  refine ⟨fun hb hlen => ?_, hunset, fun hb hlen => hrange hb (State.checkRoomToPad_of_ge hlen)⟩
  have hset : s.config.blockBytes ≠ 0 := hb ▸ by decide
  have hpass := (State.paddingChecks_of_set _ hset).trans (State.checkRoomToPad_of_lt hlen)
  obtain ⟨hfit, -⟩ := State.padBytes_fits hlen hset hp (.inr hb)
  rw [State.blockSize_of_sixteen hb] at hfit
  have houtLen := s.paddingDone_outLen_toNat (padBytes 16 s.message) hp hfit
  refine ⟨_, execPad_of_pass hb hpass, ⟨rfl, rfl⟩, rfl, s.paddingDone_holdsOutput _ _, ?_,
    s.paddingDone_ramUnchangedOutside _ _ houtLen.symm⟩
  rw [houtLen, padBytes_sixteen_length, s.message_length]

/-- Settles O47: PadCount decides between the success and the PADDING_ERROR, and each failed check scrubs. -/
theorem unpadCommand : Obligations.UnpadCommand := by
  refine ⟨decode_of_fields rfl rfl, fun s hp => ?_⟩
  obtain ⟨hunset, hrange⟩ := failsScrubbed_of_paddingChecks fun _ => execUnpad_of_fail (s := s)
  refine ⟨fun hb hlen => ?_, hunset, fun hb hlen => hrange hb (State.checkFits_of_gt hlen)⟩
  have hset : s.config.blockBytes ≠ 0 := hb ▸ by decide
  have hpass := (State.paddingChecks_of_set _ hset).trans (State.checkFits_of_le hlen)
  cases hpad : padCount 16 s.message with
  | ok n =>
    have hn : n ≤ s.msgLen.toNat := s.message_length ▸ padCount_le_length hpad
    exact ⟨_, execUnpad_of_ok hb hpass hpad, rfl, ⟨rfl, rfl⟩, s.paddingDone_holdsOutput _ _, hn,
      s.paddingDone_outLen_toNat _ hp (by omega), s.paddingDone_ramUnchangedOutside _ _ s.message_length⟩
  | error d =>
    have hfails : FailsScrubbed s (s.raiseScrub d) .paddingError d :=
      padCount_error_result hpad ▸ failsScrubbed_raiseScrub s d
    exact ⟨_, execUnpad_of_error hb hpass hpad, rfl, hfails⟩

end Sys2Proof.Proofs

/-! ### Configuration and control commands (45_control.md) -/

namespace Sys2Proof.Machine

/-! #### The command word of an immediate (R201, R202) -/

/-- The encoder as the host writes it: the immediate shifted above the opcode. -/
theorem encode_eq_shiftLeft_or (i : Instr) :
    encode i = BitVec.ofNat 32 i.argument <<< 8 ||| i.opcode.setWidth 32 := by
  apply BitVec.eq_of_getLsbD_eq
  intro k hk
  simp only [encode, BitVec.getLsbD_append, BitVec.getLsbD_or, BitVec.getLsbD_shiftLeft, BitVec.getLsbD_ofNat,
    BitVec.getLsbD_setWidth]
  by_cases hlow : k < 8
  · simp [hlow, hk]
  · have hop : i.opcode.getLsbD k = false := BitVec.getLsbD_of_ge _ _ (Nat.le_of_not_lt hlow)
    have harg : k - 8 < 24 := by omega
    simp [hlow, hk, hop, harg, (by omega : k - 8 < 32)]

theorem decode_shiftLeft_or {i : Instr} (h : i.wellFormed = true) :
    decode (BitVec.ofNat 32 i.argument <<< 8 ||| i.opcode.setWidth 32) = .ok i :=
  encode_eq_shiftLeft_or i ▸ decode_encode i h

/-! #### The two setters (R201, R202) -/

theorem execSetRounds_of_legal {imm : Nat} (s : State) (hpos : 1 ≤ imm) (hmax : imm ≤ 255) :
    execSetRounds imm s =
      .next { s with config := { s.config with rounds := BitVec.ofNat 8 imm } }.completeOk :=
  if_neg (by unfold Config.rMax; omega)

theorem execSetRounds_of_illegal {imm : Nat} (s : State) (h : imm = 0 ∨ 255 < imm) :
    execSetRounds imm s = .next (s.raise .roundsRange) :=
  if_pos h

theorem execSetBlock_sixteen (s : State) :
    execSetBlock 16 s = .next { s with config := { s.config with blockBytes := 16#8 } }.completeOk := rfl

theorem execSetBlock_of_ne {imm : Nat} (s : State) (h : imm ≠ 16) :
    execSetBlock imm s = .next (s.raise .blockSizeUnsupported) :=
  if_neg h

/-! #### Illegal words (R204) -/

theorem runCommandWord_of_error {w : Word} {e : DecodeError} (s : State) (h : decode w = .error e) :
    runCommandWord w s = .next (s.raise (detailOf e)) := by
  simp only [runCommandWord, h, execIllegal]

/-- A word that is accepted and then raises leaves nothing of its acceptance but LAST_OP. -/
theorem State.accept_raise (s : State) (w : Word) (d : DetailCode) :
    (s.accept w).raise d = { s with
      status := { s.status with stickyErr := true, result := d.result, detail := d, lastOp := w.extractLsb' 0 8 }
      seq := .idle, draws := s.draws + 1 } := rfl

end Sys2Proof.Machine

namespace Sys2Proof.Proofs

open Sys2Proof.Machine

/-- Settles O12: both kinds of illegal word raise, and differ in the detail alone. -/
theorem illegalWordWritesStatusOnly : Obligations.IllegalWordWritesStatusOnly :=
  fun s w => ⟨fun h => s.accept_raise w .unknownOpcode ▸ runCommandWord_of_error _ h,
    fun h => s.accept_raise w .nonzeroArg ▸ runCommandWord_of_error _ h⟩

/-- Settles O25: NOP is the completion alone, and LAST_OP comes from the acceptance. -/
theorem nopOnlyCompletes : Obligations.NopOnlyCompletes :=
  fun _ => ⟨decode_of_fields rfl rfl, rfl, rfl, rfl⟩

/-- Settles O26: the range check decides, and an immediate within it fits the eight bits of ROUNDS. -/
theorem setRoundsWritesRounds : Obligations.SetRoundsWritesRounds := by
  refine fun s imm => ⟨fun himm => ?_, fun hpos hmax => ?_, execSetRounds_of_illegal s⟩
  · exact decode_shiftLeft_or (i := .setRounds imm) (decide_eq_true himm)
  · exact ⟨_, execSetRounds_of_legal s hpos hmax, Nat.mod_eq_of_lt (Nat.lt_succ_of_le hmax), rfl⟩

/-- Settles O27: 16 passes the check, and every other immediate raises. -/
theorem setBlockAcceptsSixteenOnly : Obligations.SetBlockAcceptsSixteenOnly := by
  refine fun s => ⟨fun imm himm => ?_, ⟨_, execSetBlock_sixteen s, rfl, rfl⟩, fun _ => execSetBlock_of_ne s⟩
  exact decode_shiftLeft_or (i := .setBlock imm) (decide_eq_true himm)

/-- Settles O28: the clears are part of the completion. -/
theorem clearStatusClearsStickyBits : Obligations.ClearStatusClearsStickyBits :=
  ⟨decode_of_fields rfl rfl, fun _ => rfl⟩

end Sys2Proof.Proofs

/-! ### A lawful host, and the bus errors -/

namespace Sys2Proof.Machine

/-! #### A lawful host at one edge (20_memory.md R50) -/

/-- Lawful pins do not end while a request is being acknowledged. -/
theorem LawfulPins.inputs_ne_nil {s : State} (h : LawfulPins s.pending s.inputs) {q : BusReq} (hq : s.pending = some q) :
    s.inputs ≠ [] := by
  intro hin
  rw [hq, hin] at h
  exact h

/-- With nothing to acknowledge the request on the pins is seen, and the host stays lawful; past the list it is silent. -/
theorem LawfulPins.of_none {s : State} (h : LawfulPins s.pending s.inputs) (hnone : s.pending = none) :
    LawfulPins s.pinsNow.request s.inputs.tail := by
  unfold State.pinsNow
  rw [hnone] at h
  cases hin : s.inputs with
  | nil => trivial
  | cons p ps =>
    rw [hin] at h
    exact h

/-- At a reset edge the request on the pins is seen, whatever was being acknowledged (log entries 13, 14). -/
theorem LawfulPins.of_reset {s : State} (h : LawfulPins s.pending s.inputs) (hrst : s.pinsNow.rstN = false) :
    LawfulPins s.pinsNow.request s.inputs.tail := by
  cases hq : s.pending with
  | none => exact h.of_none hq
  | some q =>
    obtain ⟨p, ps, hin⟩ := List.exists_cons_of_ne_nil (h.inputs_ne_nil hq)
    simp only [State.pinsNow, hin, List.headD_cons] at hrst
    simpa [State.pinsNow, LawfulPins, hq, hin, hrst] using h

/-- Outside reset a lawful host holds the request being acknowledged. -/
theorem LawfulPins.of_some {s : State} (h : LawfulPins s.pending s.inputs) {q : BusReq} (hq : s.pending = some q)
    (hrst : s.pinsNow.rstN = true) : s.pinsNow.holds q = true ∧ LawfulPins none s.inputs.tail := by
  obtain ⟨p, ps, hin⟩ := List.exists_cons_of_ne_nil (h.inputs_ne_nil hq)
  simp only [State.pinsNow, hin, List.headD_cons] at hrst
  simpa [State.pinsNow, LawfulPins, hq, hin, hrst] using h

/-- Outside reset the bus answers a lawful host, which stays lawful. -/
theorem busEdge_of_lawful {s : State} (h : LawfulPins s.pending s.inputs) (hrst : s.pinsNow.rstN = true) :
    ∃ t, busEdge s.pinsNow s.takePins = .ok t ∧ LawfulPins t.pending t.inputs := by
  cases hq : s.pending with
  | none => exact ⟨_, busEdge_of_none _ hq, h.of_none hq⟩
  | some q =>
    obtain ⟨hheld, hrest⟩ := h.of_some hq hrst
    obtain ⟨-, hpending, hinputs⟩ := (hostAccess_cases { s.takePins with pending := none } q).bus
    refine ⟨_, busEdge_of_held hq hheld, ?_⟩
    rw [hpending, hinputs]
    exact hrest

/-- A step with a lawful host answers a next state, and the host stays lawful. -/
theorem step_of_lawful {s : State} (h : LawfulPins s.pending s.inputs) :
    ∃ t, step s = .next t ∧ LawfulPins t.pending t.inputs := by
  cases hrst : s.pinsNow.rstN with
  | false => exact ⟨_, step_of_reset hrst, h.of_reset hrst⟩
  | true =>
    obtain ⟨s', hbus, hlawful⟩ := busEdge_of_lawful h hrst
    obtain ⟨t, hstep, hkept⟩ := step_of_bus hrst hbus
    exact ⟨t, hstep, by rwa [hkept.pending, hkept.inputs]⟩

/-- A run goes on from the state that its first step answers. -/
theorem run_of_step {M : Host.Core} {s s' : M.State} (h : M.step s = .next s') (k : Nat) :
    M.run (k + 1) s = M.run k s' := by
  simp only [Host.Core.run, h]

/-! #### Which transactions are errors (20_memory.md R51 to R53) -/

/-- The addresses that name no place: the misaligned and the unmapped ones. -/
theorem targetOf_eq_none_iff (bufBytes : Nat) (addr : BitVec 16) :
    targetOf bufBytes addr = none ↔ addr.toNat % 4 ≠ 0 ∨
      ¬ (addr.toNat < 0x0050 ∨ (0x1000 ≤ addr.toNat ∧ addr.toNat < 0x1808) ∨
         (0x4000 ≤ addr.toNat ∧ addr.toNat < 0x4000 + bufBytes) ∨
         (0x8000 ≤ addr.toNat ∧ addr.toNat < 0x8000 + bufBytes)) := by
  rw [← Option.not_isSome_iff_eq_none, targetOf_isSome, not_and_or]
  rfl

/-- The addresses of the read-only places. -/
theorem Target.writable_eq_false_iff {bufBytes : Nat} (hmax : bufBytes ≤ 16384) {tg : Target} (hr : tg.InRange bufBytes) :
    tg.writable = false ↔
      tg.address = 0x0004 ∨ tg.address = 0x0008 ∨ tg.address = 0x0018 ∨ tg.address = 0x001C ∨
      (0x1000 ≤ tg.address ∧ tg.address < 0x1808) ∨ 0x8000 ≤ tg.address := by
  cases tg with
  | cmd | status | config | keyLen | ivLen | msgLen | outLen | subkeyCount =>
    simp [Target.writable, Target.address]
  | key n | iv n =>
    simp only [Target.writable, Target.address, reduceCtorEq, false_iff]
    omega
  | subkey k =>
    simp only [Target.InRange, Config.tMax] at hr
    simp only [Target.writable, Target.address, sBase, true_iff]
    omega
  | inBuf o =>
    simp only [Target.InRange] at hr
    simp only [Target.writable, Target.address, inBase, reduceCtorEq, false_iff]
    omega
  | outBuf o =>
    simp only [Target.writable, Target.address, outBase, true_iff]
    omega

theorem hostAccess_readOnly {s : State} {q : BusReq} {tg : Target} (htg : targetOf s.params.bufBytes q.addr = some tg)
    (hwe : q.we = true) (hro : tg.writable = false) : s.hostAccess q = { s with response := .error } := by
  simp only [State.hostAccess, htg, hwe, if_true, State.hostWrite, hro]

/-- Every other transaction of a place gets a normal response, busy or not. -/
theorem hostAccess_response_ne_error {s : State} {q : BusReq} {tg : Target}
    (htg : targetOf s.params.bufBytes q.addr = some tg) (hok : ¬ (q.we = true ∧ tg.writable = false)) :
    (s.hostAccess q).response ≠ .error := by
  simp only [State.hostAccess, htg]
  cases hwe : q.we with
  | false =>
    rw [if_neg Bool.false_ne_true, State.hostRead]
    split
    · exact Response.noConfusion
    · exact Response.noConfusion
  | true =>
    rw [if_pos rfl, State.hostWrite, if_neg fun hro => hok ⟨hwe, hro⟩]
    split
    · exact Response.noConfusion
    · exact Response.noConfusion

end Sys2Proof.Machine

namespace Sys2Proof.Proofs

open Sys2Proof.Machine

/-- Settles O18: by induction on the steps, each answers a next state and leaves the host lawful. -/
theorem lawfulHostNeverStops : Obligations.LawfulHostNeverStops := by
  intro k
  induction k with
  | zero => exact fun s _ => ⟨s, rfl⟩
  | succ k ih =>
    intro s h
    obtain ⟨s', hstep, hlawful⟩ := step_of_lawful h
    obtain ⟨t, hrun⟩ := ih s' hlawful
    exact ⟨t, (run_of_step (M := Sys2Proof.core) hstep k).trans hrun⟩

/-- Settles O19: the address names no place, or a place that is read-only or not. -/
theorem busErrorsHaveNoEffect : Obligations.BusErrorsHaveNoEffect := by
  intro s q ⟨_, _, hmax, _⟩
  cases htg : targetOf s.params.bufBytes q.addr with
  | none =>
    rw [if_pos (((targetOf_eq_none_iff _ _).1 htg).imp_right .inl)]
    exact hostAccess_unmapped htg
  | some tg =>
    obtain ⟨-, haddr, hr⟩ := targetOf_spec htg
    have hnamed := mt (targetOf_eq_none_iff s.params.bufBytes q.addr).2 (by simp [htg])
    have hwritable := Target.writable_eq_false_iff hmax hr
    rw [haddr] at hwritable
    by_cases hro : q.we = true ∧ tg.writable = false
    · rw [if_pos (.inr (.inr (hro.imp_right hwritable.1)))]
      exact hostAccess_readOnly htg hro.1 hro.2
    · rw [if_neg fun h => hro (((or_assoc.2 h).resolve_left hnamed).imp_right hwritable.2)]
      exact ⟨hostAccess_response_ne_error htg hro, (hostAccess_cases s q).bus.1⟩

end Sys2Proof.Proofs

/-! ### The scrub on every error (60_exceptions.md R225) -/

namespace Sys2Proof.Machine

/-- A command ends with RESULT OK, or with its output scrubbed. -/
def EndsOkOrScrubbed (o : Host.Outcome State Fault Refusal) : Prop :=
  ∃ t, o = .next t ∧ (t.status.result = .ok ∨ OutputScrubbed t)

theorem endsOkOrScrubbed_completeOk (s : State) : EndsOkOrScrubbed (.next s.completeOk) := ⟨_, rfl, .inl rfl⟩

theorem endsOkOrScrubbed_raiseScrub (s : State) (d : DetailCode) : EndsOkOrScrubbed (.next (s.raiseScrub d)) := by
  obtain ⟨-, -, hscrub, -⟩ := failsScrubbed_raiseScrub s d
  exact ⟨_, rfl, .inr hscrub⟩

theorem blockCommand_endsOkOrScrubbed (f : List Word → Nat → List Byte → Work) (s : State) :
    EndsOkOrScrubbed (blockCommand f s) := by
  unfold blockCommand
  split
  · exact endsOkOrScrubbed_raiseScrub s _
  · exact endsOkOrScrubbed_completeOk _

theorem execEncryptMsg_endsOkOrScrubbed (s : State) : EndsOkOrScrubbed (execEncryptMsg s) := by
  unfold execEncryptMsg
  split
  · exact endsOkOrScrubbed_raiseScrub s _
  · exact endsOkOrScrubbed_completeOk _

/-- The PADDING_ERROR scrubs too, after the key schedule. -/
theorem execDecryptMsg_endsOkOrScrubbed (s : State) : EndsOkOrScrubbed (execDecryptMsg s) := by
  unfold execDecryptMsg
  split
  · exact endsOkOrScrubbed_raiseScrub s _
  · dsimp only
    split
    · exact endsOkOrScrubbed_raiseScrub _ _
    · exact endsOkOrScrubbed_completeOk _

theorem execPad_endsOkOrScrubbed (s : State) : EndsOkOrScrubbed (execPad s) := by
  unfold execPad
  split
  · exact endsOkOrScrubbed_raiseScrub s _
  · exact endsOkOrScrubbed_completeOk _

theorem execUnpad_endsOkOrScrubbed (s : State) : EndsOkOrScrubbed (execUnpad s) := by
  unfold execUnpad
  split
  · exact endsOkOrScrubbed_raiseScrub s _
  · split
    · exact endsOkOrScrubbed_raiseScrub s _
    · exact endsOkOrScrubbed_completeOk _

theorem exec_endsOkOrScrubbed {i : Instr} (hi : i ∈ outputCommands) (s : State) : EndsOkOrScrubbed (exec i s) := by
  simp only [List.mem_cons, List.not_mem_nil, or_false] at hi
  obtain rfl | rfl | rfl | rfl | rfl | rfl := hi
  · exact blockCommand_endsOkOrScrubbed encWork s
  · exact blockCommand_endsOkOrScrubbed decWork s
  · exact execEncryptMsg_endsOkOrScrubbed s
  · exact execDecryptMsg_endsOkOrScrubbed s
  · exact execPad_endsOkOrScrubbed s
  · exact execUnpad_endsOkOrScrubbed s

/-- A command that does not write OUT_BUF changes no byte from its start on. -/
theorem exec_byteAt_output {i : Instr} {s t : State} (hi : i ∉ outputCommands) (hex : exec i s = .next t) {a : Nat}
    (ha : outBase ≤ a) : t.byteAt a = s.byteAt a := by
  by_contra h
  obtain ⟨-, hS⟩ | ⟨hout, -⟩ := (exec_cases hex).byteAt h
  · exact absurd (hS.2.trans (by decide : sBase + 4 * Config.tMax < outBase)) (Nat.not_lt.2 ha)
  · exact hi hout

theorem exec_outLen {i : Instr} {s t : State} (hi : i ∉ outputCommands) (hex : exec i s = .next t) :
    t.outLen = s.outLen := by
  by_contra h
  exact hi ((exec_cases hex).outLen h)

end Sys2Proof.Machine

namespace Sys2Proof.Proofs

open Sys2Proof.Machine

/-- Settles O48: the six commands complete with RESULT OK or with the scrub; no other command and no illegal word writes
OUT_BUF or OUT_LEN. -/
theorem scrubOnEveryError : Obligations.ScrubOnEveryError := by
  refine ⟨fun s t i hi hex herr => ?_, fun s t i hi hex => ?_, fun s t w e hdec hrun => ?_⟩
  · obtain ⟨t', hex', hends⟩ := exec_endsOkOrScrubbed hi s
    cases hex.symm.trans hex'
    exact hends.resolve_left herr
  · exact ⟨exec_outLen hi hex, fun a ha => exec_byteAt_output hi hex ha⟩
  · cases hrun.symm.trans (runCommandWord_of_error s hdec)
    exact ⟨rfl, fun _ _ => rfl⟩

end Sys2Proof.Proofs

/-! ### The reset edge, and how long a command stays busy -/

namespace Sys2Proof.Machine

/-- After a reset edge every RAM byte is the free value of the new index (70_reset_and_hazards.md R251). -/
theorem State.resetEdge_byteAt (s : State) (p : Pins) (a : Nat) :
    (s.resetEdge p).byteAt a = Config.ramAtReset (s.resets + 1) a := rfl

/-- A host that keeps the bus protocol and does not assert reset at any coming edge. -/
structure State.HostLawful (s : State) : Prop where
  lawful  : LawfulPins s.pending s.inputs
  noReset : ∀ p ∈ s.inputs, p.rstN = true

theorem State.busy_of_running {s : State} {w : Word} {n : Nat} (h : s.seq = .running w n) : s.busy = true := by
  rw [State.busy, h]
  rfl

theorem State.busy_of_idle {s : State} (h : s.seq = .idle) : s.busy = false := by
  rw [State.busy, h]
  rfl

theorem State.seq_of_not_busy {s : State} (h : s.busy = false) : s.seq = .idle := by
  cases hseq : s.seq with
  | idle => rfl
  | running w n => cases (State.busy_of_running hseq).symm.trans h

theorem State.HostLawful.rstN_pinsNow {s : State} (h : s.HostLawful) : s.pinsNow.rstN = true :=
  State.rstN_pinsNow (n := 0) fun p hp => h.noReset p (List.mem_of_mem_take hp)

/-- Before its completion edge a command comes one edge nearer to it. -/
theorem step_counts_down {s : State} {w : Word} {n : Nat} (hseq : s.seq = .running w (n + 1)) (h : s.HostLawful) :
    ∃ t, step s = .next t ∧ t.seq = .running w n ∧ t.HostLawful := by
  obtain ⟨t, hstep, hlawful⟩ := step_of_lawful h.lawful
  obtain ⟨s', -, hinputs, ⟨m, hm, rfl⟩ | ⟨hzero, -⟩⟩ := step_of_running hseq h.rstN_pinsNow hstep
  · cases hm
    exact ⟨_, hstep, rfl, hlawful, fun p hp => h.noReset p (List.mem_of_mem_tail (hinputs ▸ hp))⟩
  · cases hzero

/-- Every command word ends IDLE. -/
theorem runCommandWord_seq {w : Word} {s t : State} (h : runCommandWord w s = .next t) : t.seq = .idle := by
  obtain ⟨t', h', hleft⟩ := runCommandWord_next w s
  cases h.symm.trans h'
  exact hleft.seq

/-- At its completion edge a command ends. -/
theorem step_completes {s : State} {w : Word} (hseq : s.seq = .running w 0) (h : s.HostLawful) :
    ∃ t, step s = .next t ∧ t.seq = .idle := by
  obtain ⟨t, hstep, -⟩ := step_of_lawful h.lawful
  obtain ⟨s', -, -, ⟨m, hm, -⟩ | ⟨-, hrun⟩⟩ := step_of_running hseq h.rstN_pinsNow hstep
  · cases hm
  · exact ⟨t, hstep, runCommandWord_seq hrun⟩

/-- With n edges left before its completion edge a command ends at the (n + 1)st edge. -/
theorem run_completes {w : Word} {n : Nat} {s : State} (hseq : s.seq = .running w n) (h : s.HostLawful) :
    ∃ t, Host.Core.run Sys2Proof.core (n + 1) s = .next t ∧ t.busy = false := by
  induction n generalizing s with
  | zero =>
    obtain ⟨t, hstep, hidle⟩ := step_completes hseq h
    exact ⟨t, run_of_step (M := Sys2Proof.core) hstep 0, State.busy_of_idle hidle⟩
  | succ n ih =>
    obtain ⟨s', hstep, hseq', h'⟩ := step_counts_down hseq h
    obtain ⟨t, hrun, hidle⟩ := ih hseq' h'
    exact ⟨t, (run_of_step (M := Sys2Proof.core) hstep (n + 1)).trans hrun, hidle⟩

/-- Until then the engine is busy. -/
theorem run_stays_busy {w : Word} {j n : Nat} {s : State} (hseq : s.seq = .running w n) (h : s.HostLawful)
    (hj : j ≤ n) : ∃ t, Host.Core.run Sys2Proof.core j s = .next t ∧ t.busy = true := by
  induction j generalizing s n with
  | zero => exact ⟨s, rfl, State.busy_of_running hseq⟩
  | succ j ih =>
    obtain ⟨n, rfl⟩ := Nat.exists_eq_add_one.2 (Nat.zero_lt_of_lt hj)
    obtain ⟨s', hstep, hseq', h'⟩ := step_counts_down hseq h
    obtain ⟨t, hrun, hbusy⟩ := ih hseq' h' (Nat.le_of_succ_le_succ hj)
    exact ⟨t, (run_of_step (M := Sys2Proof.core) hstep j).trans hrun, hbusy⟩

end Sys2Proof.Machine

namespace Sys2Proof.Proofs

open Sys2Proof.Machine

/-- Settles O4: a reset edge compares no pins and runs nothing; it is `State.resetEdge`. -/
theorem resetEdge : Obligations.ResetEdge := by
  intro s p ps hin hrst
  have hpins : s.pinsNow = p := by rw [State.pinsNow, hin]; rfl
  refine ⟨s.takePins.resetEdge p, hpins ▸ step_of_reset (hpins ▸ hrst), rfl, rfl,
    fun a => s.takePins.resetEdge_byteAt p a, ?_⟩
  obtain rfl : s.inputs.tail = ps := by rw [hin, List.tail_cons]
  rfl

/-- Settles O15: the sequencer counts down fewer than LATENCY edges from acceptance, and k is one more. -/
theorem commandCompletesWithinLatency : Obligations.CommandCompletesWithinLatency := by
  intro s w hlat hlawful hrst
  have h : (s.accept w).HostLawful := ⟨hlawful, hrst⟩
  refine ⟨busyExtra s.params.latency s.draws + 1, Nat.le_add_left 1 _, State.Inv.busyExtra_lt _ hlat,
    run_completes (State.accept_seq s w) h, fun j hj => ?_⟩
  exact run_stays_busy (State.accept_seq s w) h (Nat.le_of_lt_succ hj)

end Sys2Proof.Proofs

/-! ### The end of a command in a run of a host program -/

namespace Sys2Proof.Machine

/-! #### What a completion takes from the bus -/

theorem ne_clearStatus_of_output {i : Instr} (hi : i ∈ outputCommands) : i ≠ .clearStatus := by
  rintro rfl
  simp at hi

/-- CLEAR_STATUS clears WR_IGNORED; every other command keeps it. -/
theorem ExecCase.wrIgnored {i : Instr} {s t : State} (hc : ExecCase s i t) :
    t.status.wrIgnored = if i = .clearStatus then false else s.status.wrIgnored := by
  cases hc with
  | nop | roundsSet | blockSet | statusCleared | expanded | paddingRefused => rfl
  | refused i d hi => exact (if_neg hi).symm
  | scrubbed i d hi => exact (if_neg (ne_clearStatus_of_output hi)).symm
  | blockDone i w hi => exact (if_neg (ne_clearStatus_of_output (mem_outputCommands (.inl hi)))).symm
  | messageDone i x n hi => exact (if_neg (ne_clearStatus_of_output (mem_outputCommands (.inr (.inl hi))))).symm
  | paddedOrStripped i bs n hi => exact (if_neg (ne_clearStatus_of_output (mem_outputCommands (.inr (.inr hi))))).symm

/-- What a command word leaves of WR_IGNORED depends on WR_IGNORED before it alone. -/
theorem runCommandWord_wrIgnored {w : Word} {s s' t t' : State} (h : runCommandWord w s = .next t)
    (h' : runCommandWord w s' = .next t') (hsame : s'.status.wrIgnored = s.status.wrIgnored) :
    t'.status.wrIgnored = t.status.wrIgnored := by
  cases hdec : decode w with
  | ok i =>
    simp only [runCommandWord, hdec] at h h'
    rw [(exec_cases h').wrIgnored, (exec_cases h).wrIgnored, hsame]
  | error e =>
    cases (runCommandWord_of_error s hdec).symm.trans h
    cases (runCommandWord_of_error s' hdec).symm.trans h'
    exact hsame

/-- No command word writes LAST_OP at its completion (20_memory.md R60: acceptance did). -/
theorem runCommandWord_lastOp {w : Word} {s t : State} (h : runCommandWord w s = .next t) :
    t.status.lastOp = s.status.lastOp := by
  obtain ⟨i, -, hex⟩ | ⟨e, rfl⟩ := runCommandWord_cases h
  · exact (exec_cases hex).kept.lastOp
  · rfl

/-- The state with other bus signals and other coming pins. -/
def State.onBus (s : State) (pending : Option BusReq) (response : Response) (inputs : List Pins) : State :=
  { s with pending := pending, response := response, inputs := inputs }

/-- The state with the sequencer `left` edges before the completion edge of a word. -/
def State.awaiting (s : State) (w : Word) (left : Nat) : State := { s with seq := .running w left }

/-- At its completion edge a word does what it does in the state of its acceptance, whatever is on the bus. -/
theorem runCommandWord_awaiting_onBus {w : Word} {s u : State} (h : runCommandWord w s = .next u) (n : Nat)
    (q : Option BusReq) (resp : Response) (ins : List Pins) :
    runCommandWord w ((s.awaiting w n).onBus q resp ins) = .next (u.onBus q resp ins) := by
  obtain ⟨u', t, hu, ht, hsame⟩ := runCommandWord_withTraffic s ((s.awaiting w n).onBus q resp ins).traffic w
  obtain ⟨u'', hu', hleft⟩ := runCommandWord_next w s
  obtain ⟨t', ht', hleft'⟩ := runCommandWord_next w ((s.awaiting w n).onBus q resp ins)
  cases h.symm.trans hu
  cases h.symm.trans hu'
  cases ht.symm.trans ht'
  have hignored : t.status.wrIgnored = u.status.wrIgnored := runCommandWord_wrIgnored h ht rfl
  have htraffic : t.traffic = (u.onBus q resp ins).traffic := by
    simp only [State.traffic, Traffic.mk.injEq]
    exact ⟨hignored, hleft'.seq.trans hleft.seq.symm, hleft'.pending, hleft'.response,
      hleft'.inputs, hleft'.draws.trans hleft.draws.symm⟩
  exact Eq.trans ht (congrArg _ (Eq.trans hsame (congrArg u.withTraffic htraffic)))

/-! #### The two edges of a statement -/

/-- An edge takes the sequencer, and with it the rest of the engine, from x to y whatever is on the bus. -/
def SequencerTakes (x y : State) : Prop :=
  ∀ q resp ins, sequencerEdge x.seq (x.onBus q resp ins) = .next (y.onBus q resp ins)

theorem SequencerTakes.of_idle {x : State} (h : x.seq = .idle) : SequencerTakes x x := by
  intro q resp ins
  rw [h]
  rfl

theorem SequencerTakes.countDown (s : State) (w : Word) (n : Nat) :
    SequencerTakes (s.awaiting w (n + 1)) (s.awaiting w n) := fun _ _ _ => rfl

theorem SequencerTakes.complete {s u : State} {w : Word} (h : runCommandWord w s = .next u) :
    SequencerTakes (s.awaiting w 0) u := fun q resp ins => runCommandWord_awaiting_onBus h 0 q resp ins

theorem SequencerTakes.onBus {x y : State} (h : SequencerTakes x y) (q : Option BusReq) (resp : Response)
    (ins : List Pins) : SequencerTakes (x.onBus q resp ins) y := fun q' resp' ins' => h q' resp' ins'

theorem BusReq.holds_pins (q : BusReq) : q.pins.holds q = true := by
  simp [Pins.holds_iff, BusReq.pins]

/-- An edge outside reset is what the sequencer makes of the bus. -/
theorem step_eq_sequencerEdge {s s' : State} (hrst : s.pinsNow.rstN = true)
    (hbus : busEdge s.pinsNow s.takePins = .ok s') : step s = sequencerEdge s.seq s' := by
  simp only [step, clockEdge, hrst, if_true, hbus, State.takePins_seq]

/-- The edge that sees the request of a statement. -/
theorem State.present_of_takes {s y : State} (hfree : s.pending = none) (h : SequencerTakes s y) (q : BusReq) :
    s.present q = .next (y.onBus (some q) .noAck [q.pins]) :=
  (step_eq_sequencerEdge (s := { s with inputs := [q.pins, q.pins] }) rfl
    (busEdge_of_none (s := { s with inputs := [q.pins] }) q.pins hfree)).trans (h (some q) .noAck [q.pins])

/-- The edge that acknowledges it. -/
theorem step_of_presented (y : State) (q : BusReq) :
    step (y.onBus (some q) .noAck [q.pins]) = sequencerEdge y.seq ((y.onBus none .noAck []).hostAccess q) :=
  step_eq_sequencerEdge (s := y.onBus (some q) .noAck [q.pins]) rfl
    (busEdge_of_held (s := y.onBus (some q) .noAck []) rfl q.holds_pins)

/-- A statement whose two edges answer completes. -/
theorem Run.statement_of_edges {r : Run} {st : Stmt} {seen done : State}
    (hsee : r.state.present st.request = .next seen) (hack : step seen = .next done) :
    r.statement st = .next (r.note st seen done) := by
  simp only [Run.statement, hsee, hack]

/-- With no request pending every statement completes, and leaves none pending. -/
theorem Run.statement_completes (r : Run) (st : Stmt) (hfree : r.state.pending = none) :
    ∃ seen done, r.statement st = .next (r.note st seen done) ∧ done.pending = none := by
  obtain ⟨seen, done, hsee, -, -, hack, -, hfree', -⟩ :=
    Proofs.busHandshake { r.state with inputs := [st.request.pins, st.request.pins] } _ [] rfl rfl rfl hfree
  exact ⟨seen, done, Run.statement_of_edges hsee hack, hfree'⟩

/-- The run after an accepted write of w to CMD. -/
def Run.afterCmd (r : Run) (w : Word) : Run :=
  { r with
    state := (r.state.accept w).onBus none .written []
    issued := { op := opField w, ended := false } :: r.issued }

theorem Run.note_cmd (r : Run) (w : Word) {seen : State} (hidle : seen.busy = false) (done : State) :
    r.note (.wr addrCmd w) seen done =
      { r with state := done, issued := { op := opField w, ended := false } :: r.issued } := by
  rw [Run.note, if_pos ((Stmt.issues_wr _ _ _).2 ⟨rfl, hidle⟩)]

/-- A write to CMD while IDLE issues the command. -/
theorem Run.statement_cmd {r : Run} (hidle : r.state.busy = false) (hfree : r.state.pending = none) (w : Word) :
    r.statement (.wr addrCmd w) = .next (r.afterCmd w) := by
  have hseq := State.seq_of_not_busy hidle
  have hwrite : (r.state.onBus none .noAck []).hostAccess (Stmt.wr addrCmd w).request =
      (r.state.accept w).onBus none .written [] := hostAccess_write (tg := .cmd) rfl hidle rfl
  have hack := step_of_presented r.state (Stmt.wr addrCmd w).request
  rw [hseq, hwrite] at hack
  exact (Run.statement_of_edges (State.present_of_takes hfree (.of_idle hseq) _) hack).trans
    (congrArg _ (r.note_cmd w hidle _))

/-- The run after a read of STATUS that returned v and left the engine in a state. -/
def Run.sawStatus (r : Run) (v : Word) (s : State) : Run :=
  { state := s.onBus none (.read v) [], observed := r.observed ++ [v], issued := Issued.seeStatus v r.issued }

/-- A read of STATUS returns the STATUS between its two edges (log entry 15). -/
theorem Run.statement_status {r : Run} {y z : State} (hfree : r.state.pending = none) (hsee : SequencerTakes r.state y)
    (hack : SequencerTakes y z) : r.statement (.rd addrStatus) = .next (r.sawStatus y.statusWord z) := by
  have hread : (y.onBus none .noAck []).hostAccess (Stmt.rd addrStatus).request =
      y.onBus none (.read y.statusWord) [] := hostAccess_read (tg := .status) rfl (.inr rfl)
  have hack' := (step_of_presented y (Stmt.rd addrStatus).request).trans (hread ▸ hack none (.read y.statusWord) [])
  exact Run.statement_of_edges (State.present_of_takes hfree hsee _) hack'

/-! #### Reads but of STATUS end no command -/

theorem Run.program_stmt {r r' : Run} {st : Stmt} (h : r.statement st = .next r') (ps : List Pseudo) :
    r.program (.stmt st :: ps) = r'.program ps := by
  simp only [Run.program, Run.pseudo, Pseudo.statements, Run.statements, h]

/-- Reads but of STATUS complete and leave the commands of a run as they are. -/
theorem Run.program_reads_issued (as : List (BitVec 16)) (has : addrStatus ∉ as) (r : Run)
    (hfree : r.state.pending = none) :
    ∃ m, r.program (as.map fun a => .stmt (.rd a)) = .next m ∧ m.issued = r.issued := by
  induction as generalizing r with
  | nil => exact ⟨r, rfl, rfl⟩
  | cons a as ih =>
    obtain ⟨hne, hrest⟩ := not_or.1 (List.mem_cons.not.1 has)
    obtain ⟨seen, done, hstmt, hfree'⟩ := r.statement_completes (.rd a) hfree
    obtain ⟨m, hrun, hissued⟩ := ih hrest (r.note (.rd a) seen done) (by rwa [Run.note_state])
    exact ⟨m, (Run.program_stmt hstmt _).trans hrun, hissued.trans (r.note_rd_issued a seen done (Ne.symm hne))⟩

/-- A run with a command that has not ended is not over. -/
theorem Run.isOver_eq_false {r : Run} {c : Issued} (hc : c ∈ r.issued) (h : c.ended = false) : r.isOver = false := by
  refine Bool.eq_false_iff.2 fun hover => ?_
  have hended := ((Run.isOver_iff r).1 hover).1 c hc
  simp [h] at hended

/-! #### The reads of a `wait` -/

theorem statusWord_busy (s : State) : s.statusWord.getLsbD 0 = s.busy := (statusWord_fields s).1

theorem showsEnd_of_busy {v : Word} (h : v.getLsbD 0 = true) (op : BitVec 8) : showsEnd op v = false := by
  rw [showsEnd, h]
  rfl

/-- A STATUS that shows BUSY ends no command. -/
theorem Issued.seeStatus_of_busy {v : Word} (h : v.getLsbD 0 = true) (cs : List Issued) :
    Issued.seeStatus v cs = cs := by
  cases cs with
  | nil => rfl
  | cons c cs => rw [Issued.seeStatus_cons, showsEnd_of_busy h, Bool.or_false]

/-- A `wait` ends on a STATUS that does not show BUSY. -/
theorem Run.sawStatus_readNotBusy (r : Run) (y z : State) :
    (r.sawStatus y.statusWord z).state.readNotBusy = !y.busy :=
  congrArg not (statusWord_busy y)

/-- A `wait` that reads STATUS while BUSY reads it again. -/
theorem Run.poll_of_busy {r : Run} {y z : State} (hfree : r.state.pending = none) (hsee : SequencerTakes r.state y)
    (hack : SequencerTakes y z) (hbusy : y.busy = true) (n : Nat) :
    r.poll (n + 1) = (r.sawStatus y.statusWord z).poll n := by
  simp only [Run.poll, Run.statement_status hfree hsee hack, Run.sawStatus_readNotBusy, hbusy, Bool.not_true,
    Bool.false_eq_true, if_false]

/-- A `wait` that reads STATUS while IDLE ends there. -/
theorem Run.poll_of_idle {r : Run} {y : State} (hfree : r.state.pending = none) (hsee : SequencerTakes r.state y)
    (hidle : y.seq = .idle) (n : Nat) : r.poll (n + 1) = .next (r.sawStatus y.statusWord y) := by
  simp only [Run.poll, Run.statement_status hfree hsee (.of_idle hidle), Run.sawStatus_readNotBusy,
    State.busy_of_idle hidle, Bool.not_false, if_true]

/-- A read of STATUS while a command runs notes its value, and nothing else. -/
theorem Run.sawStatus_of_busy (r : Run) {y : State} (hbusy : y.busy = true) (z : State) :
    r.sawStatus y.statusWord z =
      { r with state := z.onBus none (.read y.statusWord) [], observed := r.observed ++ [y.statusWord] } := by
  rw [Run.sawStatus, Issued.seeStatus_of_busy ((statusWord_busy y).trans hbusy)]

/-- A `wait` on a command with `left` edges before its completion edge reads BUSY some times, at most `left`, and then
the STATUS of the completion state: each read takes two edges. -/
theorem Run.poll_awaiting {s u : State} {w : Word} (hu : runCommandWord w s = .next u) {left fuel : Nat} {r : Run}
    {resp : Response} (hstate : r.state = (s.awaiting w left).onBus none resp []) (hfuel : left ≤ fuel) :
    ∃ vs, r.poll (fuel + 1) = .next
      { state := u.onBus none (.read u.statusWord) [], observed := r.observed ++ vs ++ [u.statusWord]
        issued := Issued.seeStatus u.statusWord r.issued } := by
  have hidle := runCommandWord_seq hu
  have hdone := SequencerTakes.complete hu
  induction left using Nat.twoStepInduction generalizing r fuel resp with
  | zero =>
    refine ⟨[], ?_⟩
    rw [Run.poll_of_idle (by rw [hstate]; rfl) (hstate ▸ hdone.onBus none resp []) hidle, List.append_nil]
    rfl
  | one =>
    obtain ⟨fuel, rfl⟩ := Nat.exists_eq_add_one.2 hfuel
    have hsee : SequencerTakes r.state (s.awaiting w 0) :=
      hstate ▸ (SequencerTakes.countDown s w 0).onBus none resp []
    refine ⟨[(s.awaiting w 0).statusWord], ?_⟩
    rw [Run.poll_of_busy (by rw [hstate]; rfl) hsee hdone rfl, Run.sawStatus_of_busy _ rfl,
      Run.poll_of_idle rfl ((SequencerTakes.of_idle hidle).onBus _ _ _) hidle]
    rfl
  | more left ih _ =>
    obtain ⟨fuel, rfl⟩ := Nat.exists_eq_add_one.2 (Nat.zero_lt_of_lt hfuel)
    have hsee : SequencerTakes r.state (s.awaiting w (left + 1)) :=
      hstate ▸ (SequencerTakes.countDown s w (left + 1)).onBus none resp []
    have hrest : left ≤ fuel := by omega
    obtain ⟨vs, hpoll⟩ := ih (r := { r with state := (s.awaiting w left).onBus none _ [], observed := _ }) rfl hrest
    refine ⟨(s.awaiting w (left + 1)).statusWord :: vs, ?_⟩
    rw [Run.poll_of_busy (by rw [hstate]; rfl) hsee (SequencerTakes.countDown s w left) rfl,
      Run.sawStatus_of_busy _ rfl, hpoll, List.append_assoc r.observed, List.singleton_append]

theorem Run.program_wait {r t : Run} (h : r.poll (r.state.params.latency + 1) = .next t) :
    r.program [.wait] = .next t := by
  simp only [Run.program, Run.pseudo, h]

/-- The STATUS of the completion state shows the end of the command (70_reset_and_hazards.md R259). -/
theorem showsEnd_of_completion {s u : State} {w : Word} (h : runCommandWord w (s.accept w) = .next u) :
    showsEnd (opField w) u.statusWord = true := by
  obtain ⟨hbusy, -, -, -, -, -, hlastOp, -⟩ := statusWord_fields u
  exact (showsEnd_iff _ _).2
    ⟨hbusy.trans (State.busy_of_idle (runCommandWord_seq h)), hlastOp.trans (runCommandWord_lastOp h)⟩

end Sys2Proof.Machine

namespace Sys2Proof.Proofs

open Sys2Proof.Machine

/-- Settles O59: the CMD write issues the command, which only a STATUS that does not show BUSY can end; the reads of
`wait` show BUSY up to the completion edge, and then the completion state. -/
theorem commandEndsUnderWait : Obligations.CommandEndsUnderWait := by
  intro r w hlat hidle hfree hover
  have hcmd := Run.program_stmt (Run.statement_cmd hidle hfree w)
  constructor
  · intro as has
    obtain ⟨m, hrun, hissued⟩ := Run.program_reads_issued as has (r.afterCmd w) rfl
    have hmem : { op := opField w, ended := false } ∈ m.issued := hissued ▸ List.mem_cons_self
    exact ⟨m, (hcmd _).trans hrun, Run.isOver_eq_false hmem rfl⟩
  · obtain ⟨u, hu, -⟩ := runCommandWord_next w (r.state.accept w)
    have hleft : busyExtra r.state.params.latency r.state.draws ≤ r.state.params.latency :=
      (State.Inv.busyExtra_lt _ hlat).le
    obtain ⟨vs, hpoll⟩ := Run.poll_awaiting (r := r.afterCmd w) hu rfl hleft
    have hissued : Issued.seeStatus u.statusWord (r.afterCmd w).issued =
        { op := opField w, ended := true } :: r.issued := by
      rw [Run.afterCmd, Issued.seeStatus_cons, showsEnd_of_completion hu, Bool.false_or]
    have hnotBusy : u.busy = false := State.busy_of_idle (runCommandWord_seq hu)
    obtain ⟨hended, -⟩ := (Run.isOver_iff r).1 hover
    rw [hissued] at hpoll
    refine ⟨u, _, vs, hu, (hcmd _).trans (Run.program_wait hpoll), ?_, rfl, rfl, rfl⟩
    exact (Run.isOver_iff _).2 ⟨List.forall_mem_cons.2 ⟨rfl, hended⟩, hnotBusy⟩

end Sys2Proof.Proofs
